-- ==== Sys2Proof/Word.lean ====
section
/-! DEFINITION. The words of the block (00_scope R8) and the unit the environment presents (30_encoding R70). -/

namespace Sys2Proof

/-- R8: a byte, `u8`. -/
abbrev Byte := BitVec 8

/-- R8: an unsigned 16-bit value, `u16` (a header word, a checksum). -/
abbrev HalfWord := BitVec 16

/-- R8: an unsigned 32-bit value, `u32` (a timestamp, a bitmask, the raw bits of a measurement). -/
abbrev Word := BitVec 32

/-- R70: what the environment presents, a 16-bit header word and an operand byte list (R74: `SEND` alone carries
one; the empty list stands for none, log entry 6). -/
structure Transaction where
  header : HalfWord
  operand : List Byte
deriving DecidableEq, Repr

end Sys2Proof
end

