-- ==== Sys2Proof/Config.lean ====
section
/-! DEFINITION. The configuration record of 00_scope R6: what an instance of the block is made with. -/

namespace Sys2Proof

/-- R6, R64: `TLM_LEN_BIAS`, the number of bytes before the length field that the declared length counts: 0 or 4. -/
inductive LenBias where
  /-- 0: the declared length counts from the length field (90_conflicts C1, the default). -/
  | fromLength
  /-- 4: it counts the four marker bytes too. -/
  | fromMarker
deriving DecidableEq, Repr

/-- The number `TLM_LEN_BIAS` stands for. -/
def LenBias.toNat : LenBias → Nat
  | .fromLength => 0
  | .fromMarker => 4

/-- R6: the configuration record, fixed for the life of an instance (R31). -/
structure Config where
  /-- `SOF[0..3]`, the start-of-frame marker. -/
  sof : Vector Byte 4
  /-- `TLM_MIN_LEN`. -/
  tlmMinLen : Byte
  /-- `TLM_MAX_LEN`. -/
  tlmMaxLen : Byte
  /-- `TLM_LEN_BIAS`. -/
  tlmLenBias : LenBias
  /-- `MSGID_MEAS`. -/
  msgidMeas : Byte
  /-- `MSGID_PWR`. -/
  msgidPwr : Byte
  /-- `CMD_BUF_MAX`. -/
  cmdBufMax : Nat
  /-- `CRC16_POLY`, bit-reflected form. -/
  crc16Poly : HalfWord
  /-- `CRC16_INIT`. -/
  crc16Init : HalfWord
  /-- `SOF_FLUSH_ON_BOUNDARY`. -/
  sofFlushOnBoundary : Bool
deriving DecidableEq, Repr

/-- R6, R61: `CMD_MIN_FRAME`, a constant. -/
def cmdMinFrame : Nat := 4

/-- R6, R62: `CMD_BCAST_ADDR`, a constant. -/
def cmdBcastAddr : Byte := 0x00

/-- R6, last column: the spec's default of every parameter. The OPEN ones are the values of 95_test_vectors.md and no
fact of the source (D4, D6, D12, D17, D19). DESIGN CHOICE, log entry 1: unsafe for a claim about this record alone. -/
def Config.default : Config where
  sof := #v[0xAA, 0x55, 0x5A, 0xA5]
  tlmMinLen := 11
  tlmMaxLen := 64
  tlmLenBias := .fromLength
  msgidMeas := 0x01
  msgidPwr := 0x02
  cmdBufMax := 256
  crc16Poly := 0xA001
  crc16Init := 0xFFFF
  sofFlushOnBoundary := false

end Sys2Proof
end

