-- ==== Sys2Proof/Syntax.lean ====
section
/-! DEFINITION. The input transactions of the block, one constructor per row of spec/opcode_table.json (R71 to R74). -/

namespace Sys2Proof

/-- The four transactions (30_encoding R71 to R74). -/
inductive Instr where
  /-- R71: `POWER_ON`. -/
  | powerOn
  /-- R72: `RX_BYTE b`, `b` the received byte. -/
  | rxByte (b : Byte)
  /-- R73: `BOUNDARY`, the expiry of the frame-boundary timer. -/
  | boundary
  /-- R74: `SEND a, p`, `a` the target address and `p` the outbound payload, of any length. -/
  | send (a : Byte) (p : List Byte)
deriving DecidableEq, Repr

end Sys2Proof
end

