-- ==== Sys2Proof/WellFormed.lean ====
section
/-! DEFINITION. What is well formed: a configuration (R7) and a presented transaction (R70 to R75). An `Instr` needs no
check: its bytes are bytes by type, and R74 leaves the length of a `SEND` payload to the instruction (R154). -/

namespace Sys2Proof

/-- R7: `TLM_MIN_LEN − TLM_LEN_BIAS ≥ 7`, so that every accepted frame holds its fixed fields. -/
def Config.lenHoldsHeader (c : Config) : Bool := decide (c.tlmLenBias.toNat + 7 ≤ c.tlmMinLen.toNat)

/-- R7: `TLM_MIN_LEN ≤ TLM_MAX_LEN ≤ 255`; the second half holds by the type. -/
def Config.lenOrdered (c : Config) : Bool := decide (c.tlmMinLen.toNat ≤ c.tlmMaxLen.toNat)

/-- R7: `MSGID_MEAS ≠ MSGID_PWR`. -/
def Config.idsDiffer (c : Config) : Bool := decide (c.msgidMeas ≠ c.msgidPwr)

/-- R7: `CMD_BUF_MAX ≥ 4`. -/
def Config.bufHoldsFrame (c : Config) : Bool := decide (4 ≤ c.cmdBufMax)

/-- R7: `CRC16_POLY ≠ 0`. -/
def Config.polyNonzero (c : Config) : Bool := decide (c.crc16Poly ≠ 0)

/-- R7: the configuration is admitted. -/
def Config.admitted (c : Config) : Bool :=
  c.lenHoldsHeader && c.lenOrdered && c.idsDiffer && c.bufHoldsFrame && c.polyNonzero

/-- R70: the reserved bits `w[11:8]` are zero. -/
def Transaction.reservedClear (t : Transaction) : Bool := decide (t.header.toNat / 0x100 % 0x10 = 0)

/-- R79: the tag `w[15:12]` is one of the four in use. -/
def Transaction.tagInUse (t : Transaction) : Bool := decide (t.header.toNat / 0x1000 < 4)

/-- R71, R73: `POWER_ON` and `BOUNDARY` have data byte 0. -/
def Transaction.dataFits (t : Transaction) : Bool :=
  decide (t.header.toNat / 0x1000 = 0 ∨ t.header.toNat / 0x1000 = 2 → t.header.toNat % 0x100 = 0)

/-- R70: `SEND` alone carries an operand. -/
def Transaction.operandFits (t : Transaction) : Bool := decide (t.header.toNat / 0x1000 ≠ 3 → t.operand = [])

/-- R70 to R75: the pair spells a transaction. -/
def Transaction.wellFormed (t : Transaction) : Bool :=
  t.reservedClear && t.tagInUse && t.dataFits && t.operandFits

end Sys2Proof
end

