-- ==== Sys2Proof/Decode.lean ====
section
/-! DEFINITION. Decoding, total, refusing by name (R70 to R75, R78, R79); after it the encoder, and the opcode table's
numbering of an instruction's bits. -/

namespace Sys2Proof

/-- Why a presented pair spells no transaction (R75). The model refuses it (R11, R223): safe. -/
inductive DecodeError where
  /-- `w[11:8] ≠ 0`. -/
  | reservedBits
  /-- A tag of 0x4 to 0xF. -/
  | reservedTag
  /-- `POWER_ON` or `BOUNDARY` with a data byte other than 0. -/
  | nonzeroData
  /-- An operand on a transaction other than `SEND` (R70; log entry 6). -/
  | strayOperand
deriving DecidableEq, Repr

/-- R70: `w[15:12]`. -/
def headerTag (w : HalfWord) : BitVec 4 := w.extractLsb' 12 4

/-- R70: `w[11:8]`. -/
def headerReserved (w : HalfWord) : BitVec 4 := w.extractLsb' 8 4

/-- R70: `w[7:0]`. -/
def headerData (w : HalfWord) : Byte := w.extractLsb' 0 8

/-- A transaction without operands of any kind: data byte 0 (R71, R73) and no byte list (R70). -/
def decodePlain (i : Instr) (data : Byte) (operand : List Byte) : Except DecodeError Instr :=
  if data ≠ 0 then .error .nonzeroData
  else if operand ≠ [] then .error .strayOperand
  else .ok i

/-- R72: the data byte is the received byte; no byte list (R70). -/
def decodeRxByte (data : Byte) (operand : List Byte) : Except DecodeError Instr :=
  if operand ≠ [] then .error .strayOperand else .ok (.rxByte data)

/-- R70 to R75: what a presented pair spells. The order in which an ill-formed pair's defects are named is the
model's (log entry 6). -/
def decode (t : Transaction) : Except DecodeError Instr :=
  if headerReserved t.header ≠ 0 then .error .reservedBits
  else if headerTag t.header = 0x0 then decodePlain .powerOn (headerData t.header) t.operand
  else if headerTag t.header = 0x1 then decodeRxByte (headerData t.header) t.operand
  else if headerTag t.header = 0x2 then decodePlain .boundary (headerData t.header) t.operand
  else if headerTag t.header = 0x3 then .ok (.send (headerData t.header) t.operand)
  else .error .reservedTag

/-- R70: a header word from its tag and its data byte, the reserved bits zero. -/
def headerOf (tag : BitVec 4) (data : Byte) : HalfWord := tag ++ (0 : BitVec 4) ++ data

/-- R71 to R74: the words of a transaction. -/
def encode : Instr → Transaction
  | .powerOn => ⟨headerOf 0x0 0x00, []⟩
  | .rxByte b => ⟨headerOf 0x1 b, []⟩
  | .boundary => ⟨headerOf 0x2 0x00, []⟩
  | .send a p => ⟨headerOf 0x3 a, p⟩

/-- The pair the opcode table's numbering gives: bits 15 to 0 are the header word, and whole bytes from bit 16 up to
`nbits` are the operand list, first byte lowest (none for the table's 16-bit rows; log entry 5). -/
def transactionOfTableWord (nbits w : Nat) : Transaction where
  header := BitVec.ofNat 16 (w % 2 ^ nbits)
  operand := (List.range ((nbits - 16) / 8)).map fun k => BitVec.ofNat 8 (w / 2 ^ (16 + 8 * k))

/-- What the decoder reads from an instruction whose bits are `w`, numbered as spec/opcode_table.json numbers them. -/
def decodeTableWord (nbits w : Nat) : Option Instr := (decode (transactionOfTableWord nbits w)).toOption

end Sys2Proof
end

