-- ==== Sys2Proof/Machine/State.lean ====
section
/-! DEFINITION. The state of one block instance (10_state R20 to R32), its output events (30_encoding R76), and the
reasons a step can stop. The block has no registers, program counter or addressable memory (R21, R31, R40, R41). -/

namespace Sys2Proof.Machine

/-- R22: how far the demultiplexer is through a candidate telemetry frame. -/
inductive DmxState where
  /-- `COMMAND_BYTE`: no candidate frame. -/
  | commandByte
  /-- `SOF_1`: one marker byte held. -/
  | sof1
  /-- `SOF_2`: two held. -/
  | sof2
  /-- `SOF_3`: three held. -/
  | sof3
  /-- `SOF_4`: four held, the next byte is the length field (90_conflicts C2). -/
  | sof4
  /-- `TELEMETRY_PAYLOAD`: a frame of accepted length is being captured. -/
  | telemetryPayload
deriving DecidableEq, Repr

/-- R25: the command receiver. -/
inductive RxState where
  /-- `RX_IDLE`: no candidate command frame. -/
  | idle
  /-- `RX_ACTIVE`: a candidate frame is being buffered. -/
  | active
  /-- `RX_ERROR`: the buffer overflowed since the last boundary. -/
  | error
deriving DecidableEq, Repr

/-- R211: the codes a `CMD_RX_ERROR` carries. -/
inductive RxErrorCode where
  /-- 0x01 `CMD_SHORT`. -/
  | short
  /-- 0x02 `CMD_CRC`. -/
  | crc
  /-- 0x03 `CMD_OVERFLOW`. -/
  | overflow
deriving DecidableEq, Repr

/-- R211: the codes a `SEND_REJECT` carries. -/
inductive SendCode where
  /-- 0x04 `SEND_BUSY`. -/
  | busy
  /-- 0x05 `SEND_LEN`. -/
  | len
deriving DecidableEq, Repr

/-- R211: the codes a `DMX_LEN_REJECT` carries. -/
inductive LenCode where
  /-- 0x06 `DMX_LEN_SMALL`. -/
  | small
  /-- 0x07 `DMX_LEN_LARGE`. -/
  | large
deriving DecidableEq, Repr

/-- R211: the codes a `TLM_DROP` carries. -/
inductive DropCode where
  /-- 0x08 `TLM_XOR`. -/
  | xor
  /-- 0x09 `TLM_SHORT_PAYLOAD`. -/
  | shortPayload
  /-- 0x0A `TLM_UNKNOWN_ID`. -/
  | unknownId
deriving DecidableEq, Repr

/-- R66, R189: one reported measurement, its id (0 to 31) and its raw signed 32-bit value. -/
structure Measurement where
  id : Fin 32
  raw : Int
deriving DecidableEq, Repr

/-- R76: the closed set of output events. -/
inductive Event where
  /-- `CMD_BYTE(b)`. -/
  | cmdByte (b : Byte)
  /-- `CMD_FRAME(addr, payload)`. -/
  | cmdFrame (addr : Byte) (payload : List Byte)
  /-- `CMD_RX_ERROR(code)`. -/
  | cmdRxError (code : RxErrorCode)
  /-- `TX_BYTE(b)`. -/
  | txByte (b : Byte)
  /-- `TX_END(bcast)`. -/
  | txEnd (bcast : Bool)
  /-- `SEND_REJECT(code)`. -/
  | sendReject (code : SendCode)
  /-- `DMX_LEN_REJECT(code, len)`. -/
  | dmxLenReject (code : LenCode) (len : Byte)
  /-- `TLM_FRAME(F)`. -/
  | tlmFrame (body : List Byte)
  /-- `MEAS_REPORT(ts, mask, vals)`. -/
  | measReport (ts : Word) (mask : Word) (vals : List Measurement)
  /-- `PWR_RECOVERY`. -/
  | pwrRecovery
  /-- `TLM_DROP(code)`. -/
  | tlmDrop (code : DropCode)
deriving DecidableEq, Repr

/-- The state. The first five fields are the block's (R20); the other three are the model's own: the configuration
record (R6, R31; log entry 1), the transactions presented and not yet consumed, oldest first (R5, R51; log entry 2), and
the events emitted so far, oldest first (R76; log entry 3). -/
structure State where
  /-- R22. -/
  dmxState : DmxState
  /-- R24: the telemetry capture buffer. -/
  tlmBuf : List Byte
  /-- R25. -/
  rxState : RxState
  /-- R26: the per-cycle command receive buffer. -/
  rxBuf : List Byte
  /-- R27. -/
  pwrLatch : Bool
  /-- R6: fixed for the life of the machine. -/
  cfg : Config
  /-- Presented transactions. -/
  input : List Transaction
  /-- Emitted events. -/
  output : List Event
deriving DecidableEq, Repr

/-- The block has no fault: every error is a non-fatal event (R210, R212; 93_implementation_defined.md: no item is
treated as a fault), so nothing raises one and there is no constructor (log entry 9: safe). -/
inductive Fault
deriving DecidableEq, Repr

/-- Why the model gives a transaction no meaning (R11, R223). -/
inductive Refusal where
  /-- Raised by an arm of `exec` whose instruction has no meaning yet (none now). Safe. -/
  | notModelled (mnemonic : String)
  /-- Raised by `step` when the presented pair spells no transaction (R75), also under a configuration that breaks R7
  (log entry 15). Safe: the spec refuses it too. -/
  | undecodable (why : DecodeError)
  /-- Raised by every transaction, and by `step` with nothing presented, under a configuration that breaks R7 (not by a
  pair that spells no transaction, log entry 15). Safe: the spec refuses it too (log entry 7). -/
  | configNotAdmitted
  /-- Raised by `RX_BYTE` when a captured body of fewer than seven bytes completes: outside the precondition of R180 and
  unreachable by R29 (4). Safe (log entry 8). -/
  | frameBelowHeader
deriving DecidableEq, Repr

/-- R30, R241: the launch state, as if `POWER_ON` had just been applied, of an instance with the spec's default
configuration (log entry 1), nothing presented (log entry 2) and nothing emitted (log entry 3). -/
def State.reset : State where
  dmxState := .commandByte
  tlmBuf := []
  rxState := .idle
  rxBuf := []
  pwrLatch := false
  cfg := Config.default
  input := []
  output := []

end Sys2Proof.Machine
end

