-- ==== Sys2Proof/Machine/Operands.lean ====
section
/-! DEFINITION. The byte-list and field functions of 00_scope R9, R10 and the held bytes of 10_state R23. -/

namespace Sys2Proof.Machine

/-- R9: `bs[i]`. Past the end it answers 0, which no rule ever reads: each use stands under a length test (log entry 10). -/
def byteAt (bs : List Byte) (i : Nat) : Byte := bs.getD i 0

/-- R9: the slice `bs[i..j)`, empty when `j ≤ i`. -/
def slice (bs : List Byte) (i j : Nat) : List Byte := (bs.take j).drop i

/-- R10: `le16(bs, i) = bs[i] | (bs[i+1] << 8)`. -/
def le16 (bs : List Byte) (i : Nat) : HalfWord :=
  (byteAt bs i).setWidth 16 ||| ((byteAt bs (i + 1)).setWidth 16 <<< 8)

/-- R10: `le32(bs, i)`. -/
def le32 (bs : List Byte) (i : Nat) : Word :=
  (byteAt bs i).setWidth 32 ||| ((byteAt bs (i + 1)).setWidth 32 <<< 8) |||
    ((byteAt bs (i + 2)).setWidth 32 <<< 16) ||| ((byteAt bs (i + 3)).setWidth 32 <<< 24)

/-- R10: `sint32(u)`, the two's complement reading (PRESUMED by the spec itself, G1; log entry 11). -/
def sint32 (u : Word) : Int := if u.toNat < 2 ^ 31 then (u.toNat : Int) else (u.toNat : Int) - 2 ^ 32

/-- R10: `popcount(u)`, the number of 1 bits. -/
def popcount (u : Word) : Nat := (List.finRange 32).countP fun i : Fin 32 => u.getLsbD i

/-- R60: the low byte of a checksum, `c[7:0]`. -/
def lowByte (c : HalfWord) : Byte := c.extractLsb' 0 8

/-- R60: the high byte of a checksum, `c[15:8]`. -/
def highByte (c : HalfWord) : Byte := c.extractLsb' 8 8

/-- R22, R23: how many marker bytes a state holds. -/
def heldCount : DmxState → Nat
  | .commandByte => 0
  | .sof1 => 1
  | .sof2 => 2
  | .sof3 => 3
  | .sof4 => 4
  | .telemetryPayload => 0

/-- R23: `held(SOF_k) = SOF[0..k)`, and none in the other two states. -/
def held (c : Config) (d : DmxState) : List Byte := c.sof.toList.take (heldCount d)

/-- The byte count a declared length asks the demultiplexer to capture is `L − TLM_LEN_BIAS` (R64, R128); this says
that `n` bytes are that many, as integers. -/
def isBodyLength (c : Config) (len : Byte) (n : Nat) : Bool := decide (n + c.tlmLenBias.toNat = len.toNat)

end Sys2Proof.Machine
end

