-- ==== Sys2Proof/Machine/Checksum.lean ====
section
/-! DEFINITION. The checksum functions of 40_checksum.md: pure functions of the configuration and a byte list. -/

namespace Sys2Proof.Machine

/-- R100: one of the eight shifts of `crc16_byte`. -/
def crcShift (poly c : HalfWord) : HalfWord := if c.getLsbD 0 then (c >>> 1) ^^^ poly else c >>> 1

/-- R100: `n` shifts. -/
def crcShifts (poly : HalfWord) : Nat → HalfWord → HalfWord
  | 0, c => c
  | n + 1, c => crcShifts poly n (crcShift poly c)

/-- R100: `crc16_byte(c, b)`, bit-reflected, no final XOR (the spec's choice, D17; log entry 11). -/
def crc16Byte (poly c : HalfWord) (b : Byte) : HalfWord := crcShifts poly 8 (c ^^^ b.setWidth 16)

/-- R101: the loop of `checksum16`, from a given register value. -/
def crcFold (poly : HalfWord) : HalfWord → List Byte → HalfWord
  | c, [] => c
  | c, b :: bs => crcFold poly (crc16Byte poly c b) bs

/-- R101, R102: `checksum16(bs)`; the empty list gives 0 whatever `CRC16_INIT`. -/
def checksum16 (cfg : Config) (bs : List Byte) : HalfWord :=
  if bs.length = 0 then 0 else crcFold cfg.crc16Poly cfg.crc16Init bs

/-- R103, C5: `verify16(bs) = (checksum16(bs) = 0)`, over the whole list. For a polynomial with bit 15 clear R104's
equivalence does not follow from it; R103 is followed (DEDUCED, log entry 12). -/
def verify16 (cfg : Config) (bs : List Byte) : Bool := decide (checksum16 cfg bs = 0)

/-- R107: `xor8(bs)`. -/
def xor8 (bs : List Byte) : Byte := bs.foldl (fun x b => x ^^^ b) 0x00

end Sys2Proof.Machine
end

