-- ==== Sys2Proof/Machine/Flags.lean ====
section
/-! DEFINITION. The block has no condition codes (R28). Its two status bits are
`State.rxState` and `State.pwrLatch` themselves; here are the tests the rules make on status and the numbers of the error
codes (R211). -/

namespace Sys2Proof.Machine

/-- R154, R247: the send interlock's condition, the receiver is idle. -/
def receiverIdle (s : State) : Bool := decide (s.rxState = .idle)

/-- R152: the demultiplexer is in one of `SOF_1` to `SOF_4`. -/
def holdsMarker : DmxState → Bool
  | .commandByte => false
  | .sof1 => true
  | .sof2 => true
  | .sof3 => true
  | .sof4 => true
  | .telemetryPayload => false

/-- R211: 0x01 to 0x03. -/
def rxErrorNumber : RxErrorCode → Byte
  | .short => 0x01
  | .crc => 0x02
  | .overflow => 0x03

/-- R211: 0x04, 0x05. -/
def sendNumber : SendCode → Byte
  | .busy => 0x04
  | .len => 0x05

/-- R211: 0x06, 0x07. -/
def lenNumber : LenCode → Byte
  | .small => 0x06
  | .large => 0x07

/-- R211: 0x08 to 0x0A. -/
def dropNumber : DropCode → Byte
  | .xor => 0x08
  | .shortPayload => 0x09
  | .unknownId => 0x0A

/-- R211: the code number an event reports, if it reports one. -/
def eventNumber : Event → Option Byte
  | .cmdByte _ => none
  | .cmdFrame _ _ => none
  | .cmdRxError c => some (rxErrorNumber c)
  | .txByte _ => none
  | .txEnd _ => none
  | .sendReject c => some (sendNumber c)
  | .dmxLenReject c _ => some (lenNumber c)
  | .tlmFrame _ => none
  | .measReport _ _ _ => none
  | .pwrRecovery => none
  | .tlmDrop c => some (dropNumber c)

end Sys2Proof.Machine
end

