-- ==== Sys2Proof/Machine/Ops.lean ====
section
/-! DEFINITION. The named operations over the state: one write per field, emitting an event, presenting and fetching a
transaction, and the configuration guard. The block has no traps (R212, R217): the one thing an error does is `emit`. -/

namespace Sys2Proof.Machine

/-- R11: `s.dmx_state <- d`. -/
def setDmxState (d : DmxState) (s : State) : State := { s with dmxState := d }

/-- R11: `s.tlm_buf <- bs`. -/
def setTlmBuf (bs : List Byte) (s : State) : State := { s with tlmBuf := bs }

/-- R11: `s.rx_state <- r`. -/
def setRxState (r : RxState) (s : State) : State := { s with rxState := r }

/-- R11: `s.rx_buf <- bs`. -/
def setRxBuf (bs : List Byte) (s : State) : State := { s with rxBuf := bs }

/-- R11: `s.pwr_latch <- p`. -/
def setPwrLatch (p : Bool) (s : State) : State := { s with pwrLatch := p }

/-- The transactions still to be consumed (log entry 2). -/
def setInput (ts : List Transaction) (s : State) : State := { s with input := ts }

/-- R11, R212: `emit E` appends the event to the output. -/
def emit (e : Event) (s : State) : State := { s with output := s.output ++ [e] }

/-- R11: `for b in bs`, in order. -/
def forBytes (f : Byte → State → State) : List Byte → State → State
  | [], s => s
  | b :: bs, s => forBytes f bs (f b s)

/-- R7, R223, R243: a configuration that breaks R7 is refused; under any other the transaction goes on. -/
def whenAdmitted (s : State) (k : Host.Outcome State Fault Refusal) : Host.Outcome State Fault Refusal :=
  if s.cfg.admitted then k else .refused .configNotAdmitted

/-- R5: the oldest presented transaction, and the state that has consumed it. -/
def fetch (s : State) : Option (Transaction × State) :=
  match s.input with
  | [] => none
  | t :: rest => some (t, setInput rest s)

/-- The environment presents a transaction as the next one to be consumed (log entry 5). -/
def present (t : Transaction) (s : State) : State := setInput (t :: s.input) s

/-- R252: with no transaction presented the block waits, unchanged (log entry 4). -/
def waitForInput (s : State) : Host.Outcome State Fault Refusal := whenAdmitted s (.next s)

/-- R75, R223: a pair that spells no transaction has no successor state. -/
def refuseUndecodable (e : DecodeError) : Host.Outcome State Fault Refusal := .refused (.undecodable e)

end Sys2Proof.Machine
end

