-- ==== Sys2Proof/Machine/Codec.lean ====
section
/-! DEFINITION. The command codec (42_command_codec.md): the command sink, BOUNDARY and SEND. -/

namespace Sys2Proof.Machine

/-- R150: what the receive buffer does with a byte routed to the command sink. -/
def rxAppend (b : Byte) (s : State) : State :=
  match s.rxState with
  | .idle => setRxState .active (setRxBuf [b] s)
  | .active =>
    if s.rxBuf.length < s.cfg.cmdBufMax then setRxBuf (s.rxBuf ++ [b]) s else setRxState .error s
  | .error => s

/-- R150: `CmdSink(b)`. -/
def cmdSink (b : Byte) (s : State) : State := rxAppend b (emit (.cmdByte b) s)

/-- `for x in bs: CmdSink(x)`. -/
def cmdSinkAll (bs : List Byte) (s : State) : State := forBytes cmdSink bs s

/-- R153: `CmdValidate(B)`. -/
def cmdValidate (frame : List Byte) (s : State) : State :=
  if frame.length < cmdMinFrame then emit (.cmdRxError .short) s
  else if verify16 s.cfg frame = false then emit (.cmdRxError .crc) s
  else emit (.cmdFrame (byteAt frame 0) (slice frame 1 (frame.length - 2))) s

/-- R152: the flush of held marker bytes, when the configuration asks for it. -/
def boundaryFlush (s : State) : State :=
  if s.cfg.sofFlushOnBoundary && holdsMarker s.dmxState then
    setDmxState .commandByte (cmdSinkAll (held s.cfg s.dmxState) s)
  else s

/-- R152: the report on the candidate frame. -/
def boundaryReport (s : State) : State :=
  match s.rxState with
  | .idle => s
  | .active => cmdValidate s.rxBuf s
  | .error => emit (.cmdRxError .overflow) s

/-- R152, R159: `s.rx_buf <- []`, `s.rx_state <- RX_IDLE`. -/
def receiverToIdle (s : State) : State := setRxState .idle (setRxBuf [] s)

/-- R152: BOUNDARY. -/
def execBoundary (s : State) : Host.Outcome State Fault Refusal :=
  whenAdmitted s (.next (receiverToIdle (boundaryReport (boundaryFlush s))))

/-- R155: emit one `TX_BYTE` per byte, in order. -/
def txBytes (bs : List Byte) (s : State) : State := forBytes (fun b => emit (.txByte b)) bs s

/-- R60, R155: the bytes of an outbound frame, the checksum low byte first. -/
def txFrame (cfg : Config) (a : Byte) (p : List Byte) : List Byte :=
  (a :: p) ++ [lowByte (checksum16 cfg (a :: p)), highByte (checksum16 cfg (a :: p))]

/-- R156: `CmdClassify(a)`. -/
def cmdClassify (a : Byte) (s : State) : State := emit (.txEnd (decide (a = cmdBcastAddr))) s

/-- R155: `CmdBuild(a, p)`. -/
def cmdBuild (a : Byte) (p : List Byte) (s : State) : State := cmdClassify a (txBytes (txFrame s.cfg a p) s)

/-- R154: SEND, busy before length. -/
def execSend (a : Byte) (p : List Byte) (s : State) : Host.Outcome State Fault Refusal :=
  whenAdmitted s (.next (
    if receiverIdle s = false then emit (.sendReject .busy) s
    else if p.length < 1 ∨ s.cfg.cmdBufMax < p.length + 3 then emit (.sendReject .len) s
    else cmdBuild a p s))

end Sys2Proof.Machine
end

