-- ==== Sys2Proof/Machine/Telemetry.lean ====
section
/-! DEFINITION. The telemetry decoder (43_telemetry_decoder.md), reached from RX_BYTE. -/

namespace Sys2Proof.Machine

/-- R184: the loop over the mask's bits, from the ids still to scan, with the cursor into the payload. -/
def measLoop (mask : Word) (payload : List Byte) : List (Fin 32) → Nat → List Measurement
  | [], _ => []
  | i :: is, cur =>
    if mask.getLsbD i then ⟨i, sint32 (le32 payload cur)⟩ :: measLoop mask payload is (cur + 4)
    else measLoop mask payload is cur

/-- R184, R185: one value per set bit, bit 0 first, from payload byte 4 on. -/
def measValues (mask : Word) (payload : List Byte) : List Measurement :=
  measLoop mask payload (List.finRange 32) 4

/-- R184, R186, R187, R189: `TlmMeas(ts, P)`. -/
def tlmMeas (ts : Word) (payload : List Byte) (s : State) : State :=
  if payload.length < 4 then emit (.tlmDrop .shortPayload) s
  else if payload.length < 4 + 4 * popcount (le32 payload 0) then emit (.tlmDrop .shortPayload) s
  else emit (.measReport ts (le32 payload 0) (measValues (le32 payload 0) payload)) s

/-- R190: `TlmPower()`, once per power cycle. -/
def tlmPower (s : State) : State := if s.pwrLatch then s else emit .pwrRecovery (setPwrLatch true s)

/-- R182: the payload of a frame body, `F[6 .. |F|−1)`. -/
def bodyPayload (body : List Byte) : List Byte := slice body 6 (body.length - 1)

/-- R180, R181, R182, R192: `TlmDecode(F)`, on a body of at least seven bytes. -/
def tlmDecode (body : List Byte) (s : State) : State :=
  if xor8 body ≠ 0x00 then emit (.tlmDrop .xor) s
  else if byteAt body 1 = s.cfg.msgidMeas then tlmMeas (le32 body 2) (bodyPayload body) s
  else if byteAt body 1 = s.cfg.msgidPwr then tlmPower s
  else emit (.tlmDrop .unknownId) s

end Sys2Proof.Machine
end

