-- ==== Sys2Proof/Machine/Demux.lean ====
section
/-! DEFINITION. The demultiplexer (41_demux.md): RX_BYTE. -/

namespace Sys2Proof.Machine

/-- R121: `DmxIdle(b)`, in `COMMAND_BYTE`. -/
def dmxIdle (b : Byte) (s : State) : State :=
  if b = s.cfg.sof[0] then setDmxState .sof1 s else cmdSink b s

/-- R122: `DmxAdvance(k)`, to the state that holds one more byte. -/
def dmxAdvance (further : DmxState) (s : State) : State := setDmxState further s

/-- R123: `DmxRestart(k)`, the old held bytes routed and `b` the one held byte. -/
def dmxRestart (s : State) : State := setDmxState .sof1 (cmdSinkAll (held s.cfg s.dmxState) s)

/-- R124: `DmxFail(k, b)`, the held bytes and then `b` routed. -/
def dmxFail (b : Byte) (s : State) : State :=
  setDmxState .commandByte (cmdSink b (cmdSinkAll (held s.cfg s.dmxState) s))

/-- R120, R130: in `SOF_k`, k in 1..3: the next marker byte `want` is tested first, then `SOF[0]`. -/
def dmxMatch (want : Byte) (further : DmxState) (b : Byte) (s : State) : State :=
  if b = want then dmxAdvance further s
  else if b = s.cfg.sof[0] then dmxRestart s
  else dmxFail b s

/-- R125, R126: `DmxLenReject(code, b)`; the length byte is not rescanned (D9). -/
def dmxLenReject (code : LenCode) (b : Byte) (s : State) : State :=
  setDmxState .commandByte (cmdSink b (cmdSinkAll (held s.cfg s.dmxState) (emit (.dmxLenReject code b) s)))

/-- R127: `DmxAccept(b)`. -/
def dmxAccept (b : Byte) (s : State) : State := setDmxState .telemetryPayload (setTlmBuf [b] s)

/-- R120: in `SOF_4`, the length byte, compared unsigned. -/
def dmxLength (b : Byte) (s : State) : State :=
  if b.toNat < s.cfg.tlmMinLen.toNat then dmxLenReject .small b s
  else if s.cfg.tlmMaxLen.toNat < b.toNat then dmxLenReject .large b s
  else dmxAccept b s

/-- R129: frame completion: the decoder runs in the same step, after `TLM_FRAME`. A body below the seven bytes of
R180 is refused (log entry 8). -/
def dmxComplete (body : List Byte) (s : State) : Host.Outcome State Fault Refusal :=
  if body.length < 7 then .refused .frameBelowHeader
  else .next (tlmDecode body (emit (.tlmFrame body) (setDmxState .commandByte (setTlmBuf [] s))))

/-- R128: `DmxCapture(b)`; complete when the body holds `tlm_buf[0] − TLM_LEN_BIAS` bytes. -/
def dmxCapture (b : Byte) (s : State) : Host.Outcome State Fault Refusal :=
  if isBodyLength s.cfg (byteAt (s.tlmBuf ++ [b]) 0) (s.tlmBuf ++ [b]).length then
    dmxComplete (s.tlmBuf ++ [b]) s
  else .next (setTlmBuf (s.tlmBuf ++ [b]) s)

/-- R120: the case over `dmx_state`. -/
def dmxByte (b : Byte) (s : State) : Host.Outcome State Fault Refusal :=
  match s.dmxState with
  | .commandByte => .next (dmxIdle b s)
  | .sof1 => .next (dmxMatch s.cfg.sof[1] .sof2 b s)
  | .sof2 => .next (dmxMatch s.cfg.sof[2] .sof3 b s)
  | .sof3 => .next (dmxMatch s.cfg.sof[3] .sof4 b s)
  | .sof4 => .next (dmxLength b s)
  | .telemetryPayload => dmxCapture b s

/-- R120: RX_BYTE. -/
def execRxByte (b : Byte) (s : State) : Host.Outcome State Fault Refusal := whenAdmitted s (dmxByte b s)

end Sys2Proof.Machine
end

