-- ==== Sys2Proof/Machine/Reset.lean ====
section
/-! DEFINITION. POWER_ON (70_reset_and_hazards.md). -/

namespace Sys2Proof.Machine

/-- R240: the five fields of the block at their reset values (R30); the configuration, the presented transactions and
the events already emitted stay. -/
def powerOnState (s : State) : State :=
  setDmxState .commandByte (setTlmBuf [] (setRxState .idle (setRxBuf [] (setPwrLatch false s))))

/-- R240: POWER_ON. Nothing is emitted (R242). -/
def execPowerOn (s : State) : Host.Outcome State Fault Refusal := whenAdmitted s (.next (powerOnState s))

end Sys2Proof.Machine
end

