-- ==== Sys2Proof/Machine/Dispatch.lean ====
section
/-! DEFINITION. One arm per transaction. -/

namespace Sys2Proof.Machine

def exec (i : Instr) (s : State) : Host.Outcome State Fault Refusal :=
  match i with
  | .powerOn => Sys2Proof.Machine.execPowerOn s
  | .rxByte b => Sys2Proof.Machine.execRxByte b s
  | .boundary => Sys2Proof.Machine.execBoundary s
  | .send a p => Sys2Proof.Machine.execSend a p s

end Sys2Proof.Machine
end

