-- ==== Sys2Proof/Machine/Step.lean ====
section
/-! DEFINITION. One step of the block: it consumes the oldest presented transaction (R5). -/

namespace Sys2Proof.Machine

/-- R5: fetch, decode, execute. With nothing presented the block waits (R252); a pair that spells no transaction is
refused (R75). Under a configuration that breaks R7 such a pair is refused too, and the spec does not say which of the two
refusals is named: naming `undecodable`, since the pair is decoded first, is the model's choice. DESIGN CHOICE, log entry
15: safe. -/
def step (s : State) : Host.Outcome State Fault Refusal :=
  match fetch s with
  | none => waitForInput s
  | some (t, s') =>
    match decode t with
    | .ok i => exec i s'
    | .error e => refuseUndecodable e

/-- The state with the instruction whose bits the opcode table numbers as `w` presented as the next transaction. -/
def State.withFetchWord (s : State) (nbits w : Nat) : State := present (transactionOfTableWord nbits w) s

end Sys2Proof.Machine
end

