-- ==== Sys2Proof/Safety.lean ====
section
/-! DEFINITION. The terms claims are made in: the invariants of 10_state R29, runs, and what can be read off the events
of a run (R132, R133, R190). -/

namespace Sys2Proof.Machine

/-- R29 (1), (4): the capture buffer against the demultiplexer state. -/
abbrev CaptureInv (s : State) : Prop :=
  (s.dmxState ≠ .telemetryPayload → s.tlmBuf = []) ∧
  (s.dmxState = .telemetryPayload →
    s.cfg.tlmMinLen.toNat ≤ (byteAt s.tlmBuf 0).toNat ∧ (byteAt s.tlmBuf 0).toNat ≤ s.cfg.tlmMaxLen.toNat ∧
    1 ≤ s.tlmBuf.length ∧ s.tlmBuf.length + s.cfg.tlmLenBias.toNat < (byteAt s.tlmBuf 0).toNat)

/-- R29 (2), (3): the receive buffer against the receiver state. -/
abbrev ReceiverInv (s : State) : Prop :=
  (s.rxState = .idle ↔ s.rxBuf = []) ∧
  (s.rxState = .active → 1 ≤ s.rxBuf.length ∧ s.rxBuf.length ≤ s.cfg.cmdBufMax) ∧
  (s.rxState = .error → s.rxBuf.length = s.cfg.cmdBufMax) ∧
  s.rxBuf.length ≤ s.cfg.cmdBufMax

/-- R29: what every reachable state satisfies. -/
abbrev BlockInv (s : State) : Prop := CaptureInv s ∧ ReceiverInv s

/-- The next state of an outcome, if there is one. -/
def nextState : Host.Outcome State Fault Refusal → Option State
  | .next t => some t
  | .fault _ => none
  | .refused _ => none

/-- A run of transactions, in order, each to its next state; none where one has no next state. -/
def runAll : List Instr → State → Option State
  | [], s => some s
  | i :: is, s =>
    match exec i s with
    | .next t => runAll is t
    | .fault _ => none
    | .refused _ => none

/-- The bytes a run takes from the line, in arrival order: its RX_BYTE operands (R132). -/
def lineBytes : List Instr → List Byte
  | [] => []
  | .rxByte b :: is => b :: lineBytes is
  | .powerOn :: is => lineBytes is
  | .boundary :: is => lineBytes is
  | .send _ _ :: is => lineBytes is

/-- The `CMD_BYTE` operands of a list of events, in order (R47). -/
def cmdBytes : List Event → List Byte
  | [] => []
  | .cmdByte b :: es => b :: cmdBytes es
  | .cmdFrame _ _ :: es => cmdBytes es
  | .cmdRxError _ :: es => cmdBytes es
  | .txByte _ :: es => cmdBytes es
  | .txEnd _ :: es => cmdBytes es
  | .sendReject _ :: es => cmdBytes es
  | .dmxLenReject _ _ :: es => cmdBytes es
  | .tlmFrame _ :: es => cmdBytes es
  | .measReport _ _ _ :: es => cmdBytes es
  | .pwrRecovery :: es => cmdBytes es
  | .tlmDrop _ :: es => cmdBytes es

/-- R132: the line bytes a list of events accounts for, in order: each `CMD_BYTE` its byte, each completed telemetry
frame its four marker bytes and its body. -/
def routedBytes (c : Config) : List Event → List Byte
  | [] => []
  | .cmdByte b :: es => b :: routedBytes c es
  | .tlmFrame body :: es => c.sof.toList ++ body ++ routedBytes c es
  | .cmdFrame _ _ :: es => routedBytes c es
  | .cmdRxError _ :: es => routedBytes c es
  | .txByte _ :: es => routedBytes c es
  | .txEnd _ :: es => routedBytes c es
  | .sendReject _ :: es => routedBytes c es
  | .dmxLenReject _ _ :: es => routedBytes c es
  | .measReport _ _ _ :: es => routedBytes c es
  | .pwrRecovery :: es => routedBytes c es
  | .tlmDrop _ :: es => routedBytes c es

/-- R132: the bytes of the current state: the held marker bytes, and while a frame is captured its four marker bytes
and what has been captured of it. -/
def pendingBytes (s : State) : List Byte :=
  held s.cfg s.dmxState ++ (if s.dmxState = .telemetryPayload then s.cfg.sof.toList ++ s.tlmBuf else [])

/-- R132: every line byte the block has taken, as its events and its state account for it. -/
def accountedBytes (s : State) : List Byte := routedBytes s.cfg s.output ++ pendingBytes s

/-- R190, R194: the number of recovery actions triggered. -/
def recoveries (s : State) : Nat := s.output.countP (fun e => decide (e = .pwrRecovery))

/-- R190, R27: the latch as a count. -/
def latchCount (s : State) : Nat := if s.pwrLatch then 1 else 0

/-- R193: the events that are a decoder's result. -/
def isDecoderResult : Event → Bool
  | .measReport _ _ _ => true
  | .pwrRecovery => true
  | .tlmDrop _ => true
  | .cmdByte _ => false
  | .cmdFrame _ _ => false
  | .cmdRxError _ => false
  | .txByte _ => false
  | .txEnd _ => false
  | .sendReject _ => false
  | .dmxLenReject _ _ => false
  | .tlmFrame _ => false

/-- R22: `SOF_(k+1)`, the state that holds `k + 1` marker bytes. -/
def sofState (k : Fin 4) : DmxState :=
  match k with
  | 0 => .sof1
  | 1 => .sof2
  | 2 => .sof3
  | 3 => .sof4

/-- R128, R129: in this state the byte `b` completes the frame body `body`, of a length R180 admits. -/
abbrev CompletesFrame (s : State) (b : Byte) (body : List Byte) : Prop :=
  s.dmxState = .telemetryPayload ∧ body = s.tlmBuf ++ [b] ∧
  body.length + s.cfg.tlmLenBias.toNat = (byteAt body 0).toNat ∧ 7 ≤ body.length

/-- R129: what completing a frame leaves, with the decoder's events `es` after `TLM_FRAME`. -/
def afterFrame (s : State) (body : List Byte) (es : List Event) : State :=
  { s with dmxState := .commandByte, tlmBuf := [], output := s.output ++ .tlmFrame body :: es }

/-- R66: the ids of the set bits of a mask, in ascending order. -/
def setBits (mask : Word) : List (Fin 32) := (List.finRange 32).filter fun i : Fin 32 => mask.getLsbD i

end Sys2Proof.Machine
end

