-- ==== Sys2Proof/Certificates/Slice0/Obligations.lean ====
section
/-! DEFINITION. The statements for the provers, from the spec's numbered rules. -/

open Sys2Proof Sys2Proof.Machine

/-! ### Encoding (30_encoding.md) -/

/-- R70 to R75: decoding the words of any transaction gives it back, with every operand at every value. -/
def Obligations.DecodeEncodeRoundTrip : Prop := ∀ i : Instr, decode (encode i) = .ok i

/-- R71 to R74: the header words of the four transactions, written and read. -/
def Obligations.HeaderWords : Prop :=
  encode .powerOn = ⟨0x0000, []⟩ ∧
  (∀ b : Byte, encode (.rxByte b) = ⟨0x1000 ||| b.setWidth 16, []⟩) ∧
  encode .boundary = ⟨0x2000, []⟩ ∧
  (∀ (a : Byte) (p : List Byte), encode (.send a p) = ⟨0x3000 ||| a.setWidth 16, p⟩) ∧
  decode ⟨0x0000, []⟩ = .ok .powerOn ∧
  (∀ b : Byte, decode ⟨0x1000 ||| b.setWidth 16, []⟩ = .ok (.rxByte b)) ∧
  decode ⟨0x2000, []⟩ = .ok .boundary ∧
  (∀ (a : Byte) (p : List Byte), decode ⟨0x3000 ||| a.setWidth 16, p⟩ = .ok (.send a p))

/-- R70 to R75: each header word has one meaning, the transaction whose word it is. That a pair with an operand list on
a transaction other than SEND has none is no rule of the spec but the model's choice (log entry 6). -/
def Obligations.DecodedPairIsItsEncoding : Prop :=
  ∀ (t : Transaction) (i : Instr), decode t = .ok i → encode i = t

/-- R75: every other header word is refused, by the decoder and by the machine, and no header word but those. That the
refusal is named `undecodable` also under a configuration that breaks R7 is the model's choice (log entry 15). -/
def Obligations.EveryOtherHeaderWordRefused : Prop :=
  ∀ (w : HalfWord) (p : List Byte), (w.toNat / 0x1000 ≠ 3 → p = []) →
    ((4 ≤ w.toNat / 0x1000 ∨ w.toNat / 0x100 % 0x10 ≠ 0 ∨
        ((w.toNat / 0x1000 = 0 ∨ w.toNat / 0x1000 = 2) ∧ w.toNat % 0x100 ≠ 0)) →
      ∃ e, decode ⟨w, p⟩ = .error e ∧
        ∀ (s : State) (rest : List Transaction), s.input = ⟨w, p⟩ :: rest → step s = .refused (.undecodable e)) ∧
    (¬ (4 ≤ w.toNat / 0x1000 ∨ w.toNat / 0x100 % 0x10 ≠ 0 ∨
        ((w.toNat / 0x1000 = 0 ∨ w.toNat / 0x1000 = 2) ∧ w.toNat % 0x100 ≠ 0)) →
      ∃ i, decode ⟨w, p⟩ = .ok i)

/-- R70 (the model's reading, log entry 6): an operand on a transaction other than SEND is refused. -/
def Obligations.StrayOperandRefused : Prop :=
  ∀ t : Transaction, t.header.toNat / 0x1000 ≠ 3 → t.operand ≠ [] → ∃ e, decode t = .error e

/-- 95_test_vectors.md ENC-1 to ENC-8: sample words. How `decodeTableWord` numbers the bits, and with it that the bare
word 0x3000 is SEND 0x00 with the empty payload, is the model's choice (log entry 5) and no vector's. -/
def Obligations.SampleWordsDecode : Prop :=
  decodeTableWord 16 0x0000 = some .powerOn ∧ decodeTableWord 16 0x10AA = some (.rxByte 0xAA) ∧
  decodeTableWord 16 0x2000 = some .boundary ∧ decodeTableWord 16 0x3000 = some (.send 0x00 []) ∧
  decode ⟨0x3000, [0x06, 0x00, 0x01, 0x00, 0x03]⟩ = .ok (.send 0x00 [0x06, 0x00, 0x01, 0x00, 0x03]) ∧
  decodeTableWord 16 0x0001 = none ∧ decodeTableWord 16 0x2080 = none ∧ decodeTableWord 16 0x1100 = none ∧
  decodeTableWord 16 0x4000 = none ∧ decodeTableWord 16 0xF0FF = none

/-! ### Steps, configuration, reset and the invariant -/

/-- R5: a step consumes the oldest presented transaction and executes it. -/
def Obligations.StepRunsTheDecodedTransaction : Prop :=
  ∀ (s : State) (t : Transaction) (rest : List Transaction) (i : Instr),
    s.input = t :: rest → decode t = .ok i → step s = exec i { s with input := rest }

/-- R252 (its reading as a step that changes nothing is the model's, log entry 4). -/
def Obligations.StepWaitsWithNothingPresented : Prop :=
  ∀ s : State, s.cfg.admitted = true → s.input = [] → step s = .next s

/-- R7: a configuration is admitted exactly under the rule's conditions, and any other is refused. The rules do not say
when: that every transaction refuses it, and no step, a waiting one included, answers a next state, is the model's choice
(log entry 7). -/
def Obligations.UnadmittedConfigurationRefused : Prop :=
  ∀ c : Config,
    (c.admitted = true ↔
      c.tlmMinLen.toNat - (c.tlmLenBias.toNat : Int) ≥ 7 ∧
      c.tlmMinLen.toNat ≤ c.tlmMaxLen.toNat ∧ c.tlmMaxLen.toNat ≤ 255 ∧
      c.msgidMeas ≠ c.msgidPwr ∧ c.cmdBufMax ≥ 4 ∧ c.crc16Poly ≠ 0) ∧
    (c.admitted = false → ∀ s : State, s.cfg = c →
      (∀ i : Instr, exec i s = .refused .configNotAdmitted) ∧ ∀ t : State, step s ≠ .next t)

/-- R30, R241: the launch state. -/
def Obligations.LaunchStateIsResetState : Prop :=
  State.reset.dmxState = .commandByte ∧ State.reset.tlmBuf = [] ∧ State.reset.rxState = .idle ∧
  State.reset.rxBuf = [] ∧ State.reset.pwrLatch = false

/-- R29: the launch state satisfies the invariants, whatever the configuration and whatever is presented. -/
def Obligations.LaunchStateSatisfiesInvariant : Prop :=
  ∀ (c : Config) (ts : List Transaction), BlockInv { State.reset with cfg := c, input := ts }

/-- R29: every step from any state that satisfies the invariants leaves a state that does. -/
def Obligations.StepKeepsInvariant : Prop :=
  ∀ s t : State, BlockInv s → step s = .next t → BlockInv t

/-- R29: every reachable state, from power-on, satisfies the invariants, for every admitted configuration and every
order of transactions. -/
def Obligations.ReachableStatesSatisfyInvariant : Prop :=
  ∀ (c : Config) (ts : List Transaction) (n : Nat) (t : State),
    Sys2Proof.core.run n { State.reset with cfg := c, input := ts } = .next t → BlockInv t

/-- R212: under the invariants every transaction has a next state; no error stops the block. -/
def Obligations.EveryTransactionCompletes : Prop :=
  ∀ s : State, s.cfg.admitted = true → BlockInv s → ∀ i : Instr, ∃ t, exec i s = .next t

/-- R31, R20: no transaction writes the configuration or takes another one, and what was emitted stays emitted. -/
def Obligations.ConfigurationFixedAndEventsOnlyAppended : Prop :=
  ∀ (i : Instr) (s t : State), exec i s = .next t →
    t.cfg = s.cfg ∧ t.input = s.input ∧ ∃ es, t.output = s.output ++ es

/-! ### POWER_ON (70_reset_and_hazards.md) -/

/-- R240: POWER_ON, from every state. -/
def Obligations.PowerOnWritesResetValues : Prop :=
  ∀ s : State, s.cfg.admitted = true →
    exec .powerOn s =
      .next { s with dmxState := .commandByte, tlmBuf := [], rxState := .idle, rxBuf := [], pwrLatch := false }

/-! ### RX_BYTE (41_demux.md) -/

/-- R121: in `COMMAND_BYTE`, `SOF[0]` is held and any other byte goes to the command sink. -/
def Obligations.CommandByteHoldsOrForwards : Prop :=
  ∀ (s : State) (b : Byte), s.cfg.admitted = true → s.dmxState = .commandByte →
    (b = s.cfg.sof[0] → exec (.rxByte b) s = .next { s with dmxState := .sof1 }) ∧
    (b ≠ s.cfg.sof[0] → exec (.rxByte b) s = .next (cmdSink b s))

/-- R150: what a byte routed to the command sink does, in each receiver state, seen at RX_BYTE in `COMMAND_BYTE`. -/
def Obligations.SunkByteEntersReceiveBuffer : Prop :=
  ∀ (s : State) (b : Byte), s.cfg.admitted = true → s.dmxState = .commandByte → b ≠ s.cfg.sof[0] →
    (s.rxState = .idle → exec (.rxByte b) s =
      .next { s with rxBuf := [b], rxState := .active, output := s.output ++ [.cmdByte b] }) ∧
    (s.rxState = .active → s.rxBuf.length < s.cfg.cmdBufMax → exec (.rxByte b) s =
      .next { s with rxBuf := s.rxBuf ++ [b], output := s.output ++ [.cmdByte b] }) ∧
    (s.rxState = .active → ¬ s.rxBuf.length < s.cfg.cmdBufMax → exec (.rxByte b) s =
      .next { s with rxState := .error, output := s.output ++ [.cmdByte b] }) ∧
    (s.rxState = .error → exec (.rxByte b) s = .next { s with output := s.output ++ [.cmdByte b] })

/-- R150, R215: routing several bytes in one step: those that fit are appended, the rest set `RX_ERROR` and are
discarded, and each is emitted. -/
def Obligations.SunkBytesFillBufferInOrder : Prop :=
  ∀ (s : State) (xs : List Byte), s.cfg.admitted = true → ReceiverInv s →
    cmdSinkAll xs s = { s with
      output := s.output ++ xs.map .cmdByte
      rxBuf := (s.rxBuf ++ xs).take s.cfg.cmdBufMax
      rxState :=
        if s.rxState = .error ∨ s.cfg.cmdBufMax < s.rxBuf.length + xs.length then .error
        else if s.rxState = .idle ∧ xs = [] then .idle else .active }

/-- R122, R130: the next marker byte advances the match, also when it equals `SOF[0]`. -/
def Obligations.NextMarkerByteAdvances : Prop :=
  ∀ (s : State) (b : Byte) (k : Fin 3), s.cfg.admitted = true → s.dmxState = sofState k.castSucc →
    b = s.cfg.sof[k.val + 1] → exec (.rxByte b) s = .next { s with dmxState := sofState k.succ }

/-- R123: a first marker byte restarts the match, and the old held bytes are routed. -/
def Obligations.FirstMarkerByteRestarts : Prop :=
  ∀ (s : State) (b : Byte) (k : Fin 3), s.cfg.admitted = true → s.dmxState = sofState k.castSucc →
    b ≠ s.cfg.sof[k.val + 1] → b = s.cfg.sof[0] →
    exec (.rxByte b) s =
      .next { cmdSinkAll (s.cfg.sof.toList.take (k.val + 1)) s with dmxState := .sof1 }

/-- R124: any other byte breaks the match: the held bytes and then it are routed. -/
def Obligations.OtherByteBreaksMatch : Prop :=
  ∀ (s : State) (b : Byte) (k : Fin 3), s.cfg.admitted = true → s.dmxState = sofState k.castSucc →
    b ≠ s.cfg.sof[k.val + 1] → b ≠ s.cfg.sof[0] →
    exec (.rxByte b) s =
      .next { cmdSinkAll (s.cfg.sof.toList.take (k.val + 1) ++ [b]) s with dmxState := .commandByte }

/-- R125, R126: a length byte out of range: the diagnostic, then five bytes to the command sink, in order, and
`COMMAND_BYTE` even when the length byte equals `SOF[0]`. -/
def Obligations.LengthOutOfRangeRejected : Prop :=
  ∀ (s : State) (b : Byte), s.cfg.admitted = true → s.dmxState = .sof4 →
    (b.toNat < s.cfg.tlmMinLen.toNat → exec (.rxByte b) s =
      .next { cmdSinkAll (s.cfg.sof.toList ++ [b])
        { s with output := s.output ++ [.dmxLenReject .small b] } with dmxState := .commandByte }) ∧
    (s.cfg.tlmMinLen.toNat ≤ b.toNat → s.cfg.tlmMaxLen.toNat < b.toNat → exec (.rxByte b) s =
      .next { cmdSinkAll (s.cfg.sof.toList ++ [b])
        { s with output := s.output ++ [.dmxLenReject .large b] } with dmxState := .commandByte })

/-- R127: a length byte in range starts the capture; the marker bytes never reach the command sink. -/
def Obligations.LengthInRangeAccepted : Prop :=
  ∀ (s : State) (b : Byte), s.cfg.admitted = true → s.dmxState = .sof4 →
    s.cfg.tlmMinLen.toNat ≤ b.toNat → b.toNat ≤ s.cfg.tlmMaxLen.toNat →
    exec (.rxByte b) s = .next { s with tlmBuf := [b], dmxState := .telemetryPayload }

/-- R128: a captured byte is appended and nothing else happens, until the declared count is reached. -/
def Obligations.CaptureAppendsByte : Prop :=
  ∀ (s : State) (b : Byte), s.cfg.admitted = true → s.dmxState = .telemetryPayload →
    (s.tlmBuf ++ [b]).length + s.cfg.tlmLenBias.toNat ≠ (byteAt (s.tlmBuf ++ [b]) 0).toNat →
    exec (.rxByte b) s = .next { s with tlmBuf := s.tlmBuf ++ [b] }

/-- R128, R129: the byte that reaches the declared count completes the frame: the whole body is handed over and the
decoder runs in the same step. The premise is the part of R29 (4) that makes every completed body at least seven bytes. -/
def Obligations.CaptureCompletesFrame : Prop :=
  ∀ (s : State) (b : Byte), s.cfg.admitted = true → CaptureInv s → s.dmxState = .telemetryPayload →
    (s.tlmBuf ++ [b]).length + s.cfg.tlmLenBias.toNat = (byteAt (s.tlmBuf ++ [b]) 0).toNat →
    7 ≤ (s.tlmBuf ++ [b]).length ∧
    exec (.rxByte b) s = .next (tlmDecode (s.tlmBuf ++ [b]) (afterFrame s (s.tlmBuf ++ [b]) []))

/-- R180's precondition (the refusal is the model's, log entry 8): a body of fewer than seven bytes, which R29 (4)
excludes, is refused. -/
def Obligations.BodyBelowHeaderRefused : Prop :=
  ∀ (s : State) (b : Byte), s.cfg.admitted = true → s.dmxState = .telemetryPayload →
    (s.tlmBuf ++ [b]).length + s.cfg.tlmLenBias.toNat = (byteAt (s.tlmBuf ++ [b]) 0).toNat →
    (s.tlmBuf ++ [b]).length < 7 → exec (.rxByte b) s = .refused .frameBelowHeader

/-- R120, R135: what RX_BYTE leaves unchanged in each demultiplexer state. While a frame is captured, no byte reaches
the command sink. -/
def Obligations.RxByteFrame : Prop :=
  ∀ (s t : State) (b : Byte), exec (.rxByte b) s = .next t →
    (s.dmxState = .telemetryPayload →
      t.rxState = s.rxState ∧ t.rxBuf = s.rxBuf ∧ cmdBytes t.output = cmdBytes s.output) ∧
    (s.dmxState ≠ .telemetryPayload → t.pwrLatch = s.pwrLatch) ∧
    (s.dmxState ≠ .telemetryPayload → s.dmxState ≠ .sof4 → t.tlmBuf = s.tlmBuf) ∧
    t.cfg = s.cfg ∧ t.input = s.input

/-- R246: no BOUNDARY (with the default parameter) and no SEND ends a match or a capture, and with any parameter no
BOUNDARY ends a capture. -/
def Obligations.OnlyBytesAndPowerOnEndTheWait : Prop :=
  ∀ s : State, s.cfg.admitted = true →
    (s.cfg.sofFlushOnBoundary = false ∨ s.dmxState = .telemetryPayload →
      ∃ t, exec .boundary s = .next t ∧ t.dmxState = s.dmxState ∧ t.tlmBuf = s.tlmBuf) ∧
    (∀ (a : Byte) (p : List Byte),
      ∃ t, exec (.send a p) s = .next t ∧ t.dmxState = s.dmxState ∧ t.tlmBuf = s.tlmBuf)

/-- R132, R242: no loss, no duplication. Over any run without POWER_ON, the line bytes taken are accounted for once
each, in arrival order, by the events and the pending bytes; from the launch state by those of the run alone. -/
def Obligations.NoLossNoDuplication : Prop :=
  (∀ (is : List Instr) (s t : State), Instr.powerOn ∉ is → runAll is s = some t →
    accountedBytes t = accountedBytes s ++ lineBytes is) ∧
  (∀ (c : Config) (is : List Instr) (t : State), Instr.powerOn ∉ is →
    runAll is { State.reset with cfg := c } = some t → lineBytes is = accountedBytes t)

/-- R47: the forwarded bytes of a run are a subsequence of the line bytes, in the same order, also across POWER_ON. -/
def Obligations.ForwardedBytesKeepArrivalOrder : Prop :=
  ∀ (c : Config) (is : List Instr) (t : State),
    runAll is { State.reset with cfg := c } = some t → (cmdBytes t.output).Sublist (lineBytes is)

/-- R133: the identity law. On a run from the launch state whose line bytes never contain the marker, the
demultiplexer is never in `SOF_4` (every beginning of such a run is such a run); and where no POWER_ON discards bytes
(R242), the forwarded bytes are the line bytes but for the held tail. -/
def Obligations.IdentityLawWithoutMarker : Prop :=
  ∀ (c : Config) (is : List Instr), c.admitted = true → ¬ c.sof.toList <:+: lineBytes is →
    ∃ t, runAll is { State.reset with cfg := c } = some t ∧
      t.dmxState ≠ .sof4 ∧ t.dmxState ≠ .telemetryPayload ∧
      (Instr.powerOn ∉ is → lineBytes is = cmdBytes t.output ++ held c t.dmxState)

/-! ### The telemetry decoder, at the byte that completes a frame (43_telemetry_decoder.md) -/

/-- R181: a body whose fold is not zero is dropped, whatever else it holds. -/
def Obligations.BadXorDropsFrame : Prop :=
  ∀ (s : State) (b : Byte) (body : List Byte), s.cfg.admitted = true → CompletesFrame s b body →
    xor8 body ≠ 0 → exec (.rxByte b) s = .next (afterFrame s body [.tlmDrop .xor])

/-- R192: a message id of neither kind. -/
def Obligations.UnknownIdDropsFrame : Prop :=
  ∀ (s : State) (b : Byte) (body : List Byte), s.cfg.admitted = true → CompletesFrame s b body →
    xor8 body = 0 → byteAt body 1 ≠ s.cfg.msgidMeas → byteAt body 1 ≠ s.cfg.msgidPwr →
    exec (.rxByte b) s = .next (afterFrame s body [.tlmDrop .unknownId])

/-- R190: a power-interruption notice triggers the recovery action once, and is a no-op while the latch is set. -/
def Obligations.PowerNoticeLatches : Prop :=
  ∀ (s : State) (b : Byte) (body : List Byte), s.cfg.admitted = true → CompletesFrame s b body →
    xor8 body = 0 → byteAt body 1 = s.cfg.msgidPwr →
    (s.pwrLatch = false → exec (.rxByte b) s =
      .next { afterFrame s body [.pwrRecovery] with pwrLatch := true }) ∧
    (s.pwrLatch = true → exec (.rxByte b) s = .next (afterFrame s body []))

/-- R186: a measurement payload too short for its bitmask drops the frame. -/
def Obligations.ShortMeasurementDropsFrame : Prop :=
  ∀ (s : State) (b : Byte) (body payload : List Byte), s.cfg.admitted = true → CompletesFrame s b body →
    xor8 body = 0 → byteAt body 1 = s.cfg.msgidMeas → payload = slice body 6 (body.length - 1) →
    payload.length < 4 ∨ payload.length < 4 + 4 * popcount (le32 payload 0) →
    exec (.rxByte b) s = .next (afterFrame s body [.tlmDrop .shortPayload])

/-- R66, R184, R185, R187, R189: a measurement report carries the timestamp, the mask and one value per set bit in
ascending order, the `j`-th set bit's value at payload bytes `4 + 4j` on; bytes beyond the last value are ignored. -/
def Obligations.MeasurementReported : Prop :=
  ∀ (s : State) (b : Byte) (body payload : List Byte) (mask : Word), s.cfg.admitted = true →
    CompletesFrame s b body → xor8 body = 0 → byteAt body 1 = s.cfg.msgidMeas →
    payload = slice body 6 (body.length - 1) → mask = le32 payload 0 →
    4 + 4 * popcount mask ≤ payload.length →
    exec (.rxByte b) s = .next (afterFrame s body [.measReport (le32 body 2) mask
      ((setBits mask).mapIdx fun j i => ⟨i, sint32 (le32 payload (4 + 4 * j))⟩)])

/-- R193: one result per frame, none only for a notice whose latch is set, and nothing of the frame to the command sink. -/
def Obligations.OneResultPerFrame : Prop :=
  ∀ (s : State) (b : Byte) (body : List Byte), s.cfg.admitted = true → CompletesFrame s b body →
    ∃ (t : State) (es : List Event), exec (.rxByte b) s = .next t ∧
      t.output = s.output ++ .tlmFrame body :: es ∧
      (es = [] ↔ xor8 body = 0 ∧ byteAt body 1 = s.cfg.msgidPwr ∧ s.pwrLatch = true) ∧
      (es = [] ∨ ∃ e, es = [e] ∧ isDecoderResult e = true) ∧
      t.rxState = s.rxState ∧ t.rxBuf = s.rxBuf

/-- R190, R194: in every transaction but POWER_ON the latch stays set once set, and each recovery action sets it. -/
def Obligations.LatchCountsRecoveries : Prop :=
  ∀ (i : Instr) (s t : State), i ≠ .powerOn → exec i s = .next t →
    (s.pwrLatch = true → t.pwrLatch = true) ∧
    recoveries t + latchCount s = recoveries s + latchCount t

/-- R194, R248: between two POWER_ONs at most one recovery action, none if the latch was set, and no run without
POWER_ON clears the latch. -/
def Obligations.OneRecoveryPerPowerCycle : Prop :=
  ∀ (is : List Instr) (s t : State), Instr.powerOn ∉ is → runAll is s = some t →
    recoveries t ≤ recoveries s + 1 ∧ (s.pwrLatch = true → t.pwrLatch = true ∧ recoveries t = recoveries s)

/-! ### BOUNDARY (42_command_codec.md) -/

/-- R152: BOUNDARY: the optional flush, the report of the candidate frame, and the receiver idle and empty. -/
def Obligations.BoundaryEffect : Prop :=
  ∀ s s₁ : State, s.cfg.admitted = true →
    s₁ = (if s.cfg.sofFlushOnBoundary = true ∧ s.dmxState ∈ [.sof1, .sof2, .sof3, .sof4] then
        { cmdSinkAll (held s.cfg s.dmxState) s with dmxState := .commandByte } else s) →
    (s₁.rxState = .idle → exec .boundary s = .next { s₁ with rxBuf := [], rxState := .idle }) ∧
    (s₁.rxState = .active → exec .boundary s =
      .next { cmdValidate s₁.rxBuf s₁ with rxBuf := [], rxState := .idle }) ∧
    (s₁.rxState = .error → exec .boundary s =
      .next { s₁ with output := s₁.output ++ [.cmdRxError .overflow], rxBuf := [], rxState := .idle })

/-- R153, R60, R61: the validator on a candidate frame, seen at BOUNDARY with nothing to flush: short before checksum,
and an accepted frame gives its address and its payload without the two checksum bytes. -/
def Obligations.CandidateFrameValidated : Prop :=
  ∀ s : State, s.cfg.admitted = true → s.cfg.sofFlushOnBoundary = false → s.rxState = .active →
    (s.rxBuf.length < 4 → exec .boundary s =
      .next { s with output := s.output ++ [.cmdRxError .short], rxBuf := [], rxState := .idle }) ∧
    (4 ≤ s.rxBuf.length → checksum16 s.cfg s.rxBuf ≠ 0 → exec .boundary s =
      .next { s with output := s.output ++ [.cmdRxError .crc], rxBuf := [], rxState := .idle }) ∧
    (∀ (a lo hi : Byte) (p : List Byte), p ≠ [] → s.rxBuf = a :: p ++ [lo, hi] → checksum16 s.cfg s.rxBuf = 0 →
      exec .boundary s =
        .next { s with output := s.output ++ [.cmdFrame a p], rxBuf := [], rxState := .idle })

/-- R159: after every BOUNDARY the receiver is idle and its buffer empty, whatever the state before. -/
def Obligations.BoundaryAlwaysRecovers : Prop :=
  ∀ s : State, s.cfg.admitted = true →
    ∃ t, exec .boundary s = .next t ∧ t.rxState = .idle ∧ t.rxBuf = []

/-- R152: what BOUNDARY leaves unchanged, and when it changes `dmx_state`. -/
def Obligations.BoundaryFrame : Prop :=
  ∀ s t : State, exec .boundary s = .next t →
    t.tlmBuf = s.tlmBuf ∧ t.pwrLatch = s.pwrLatch ∧ t.cfg = s.cfg ∧ t.input = s.input ∧
    (s.cfg.sofFlushOnBoundary = false → t.dmxState = s.dmxState ∧ cmdBytes t.output = cmdBytes s.output) ∧
    (s.cfg.sofFlushOnBoundary = true →
      t.dmxState = (if s.dmxState = .telemetryPayload then .telemetryPayload else .commandByte) ∧
      cmdBytes t.output = cmdBytes s.output ++ held s.cfg s.dmxState)

/-- R46, R152: BOUNDARY with the receiver idle and nothing to flush changes nothing. -/
def Obligations.BoundaryInIdleChangesNothing : Prop :=
  ∀ s : State, s.cfg.admitted = true → ReceiverInv s → s.rxState = .idle →
    s.cfg.sofFlushOnBoundary = false ∨ held s.cfg s.dmxState = [] → exec .boundary s = .next s

/-- R25, R150, R154: only BOUNDARY and POWER_ON clear `RX_ERROR`; until then the buffer is frozen and no byte gives a
receive report. -/
def Obligations.OverflowLastsUntilBoundary : Prop :=
  ∀ (i : Instr) (s t : State), s.rxState = .error → exec i s = .next t →
    ((i = .powerOn ∨ i = .boundary) ∧ t.rxState = .idle ∧ t.rxBuf = []) ∨
    (i ≠ .powerOn ∧ i ≠ .boundary ∧ t.rxState = .error ∧ t.rxBuf = s.rxBuf)

/-! ### SEND (42_command_codec.md) -/

/-- R154, R155, R156, R157: SEND: busy before length, else the whole frame, low checksum byte first, and the
broadcast flag; the frame verifies; no state is written. -/
def Obligations.SendEmitsFrameOrRejects : Prop :=
  ∀ (s : State) (a : Byte) (p : List Byte) (c : HalfWord), s.cfg.admitted = true →
    c = checksum16 s.cfg (a :: p) →
    (s.rxState ≠ .idle →
      exec (.send a p) s = .next { s with output := s.output ++ [.sendReject .busy] }) ∧
    (s.rxState = .idle → p.length < 1 ∨ (p.length : Int) > s.cfg.cmdBufMax - 3 →
      exec (.send a p) s = .next { s with output := s.output ++ [.sendReject .len] }) ∧
    (s.rxState = .idle → 1 ≤ p.length → (p.length : Int) ≤ s.cfg.cmdBufMax - 3 →
      exec (.send a p) s = .next { s with output := s.output ++
        ((a :: p ++ [c.extractLsb' 0 8, c.extractLsb' 8 8]).map .txByte ++ [.txEnd (decide (a = 0x00))]) } ∧
      verify16 s.cfg (a :: p ++ [c.extractLsb' 0 8, c.extractLsb' 8 8]) = true)

/-- R158: the round trip: a sent frame, received from idle without driving the demultiplexer into `SOF_4` and without
a held tail, comes back at BOUNDARY as its address and payload. -/
def Obligations.SentFrameIsReceived : Prop :=
  ∀ (s u : State) (a : Byte) (p : List Byte), s.cfg.admitted = true → s.dmxState = .commandByte →
    s.rxState = .idle → s.rxBuf = [] → 1 ≤ p.length → p.length + 3 ≤ s.cfg.cmdBufMax →
    (∀ (q : List Byte) (v : State), q <+: txFrame s.cfg a p → runAll (q.map .rxByte) s = some v →
      v.dmxState ≠ .sof4) →
    runAll ((txFrame s.cfg a p).map .rxByte) s = some u → u.dmxState = .commandByte →
    exec (.send a p) s = .next { s with output := s.output ++
      ((txFrame s.cfg a p).map .txByte ++ [.txEnd (decide (a = 0x00))]) } ∧
    exec .boundary u = .next { s with output := s.output ++
      ((txFrame s.cfg a p).map .cmdByte ++ [.cmdFrame a p]) }

/-- R211: the code number each error or diagnostic event reports. -/
def Obligations.ErrorEventsCarryTheirCodes : Prop :=
  [RxErrorCode.short, .crc, .overflow].map (fun c => eventNumber (.cmdRxError c)) =
    [some 0x01, some 0x02, some 0x03] ∧
  [SendCode.busy, .len].map (fun c => eventNumber (.sendReject c)) = [some 0x04, some 0x05] ∧
  (∀ len : Byte, [LenCode.small, .large].map (fun c => eventNumber (.dmxLenReject c len)) =
    [some 0x06, some 0x07]) ∧
  [DropCode.xor, .shortPayload, .unknownId].map (fun c => eventNumber (.tlmDrop c)) =
    [some 0x08, some 0x09, some 0x0A]

/-! ### Checksums and fields (40_checksum.md, 00_scope.md) -/

/-- R102: the empty input, for every configuration. -/
def Obligations.EmptyInputChecksumIsZero : Prop :=
  ∀ c : Config, checksum16 c [] = 0x0000 ∧ verify16 c [] = true

/-- R100, R101: one loop turn per byte, each the eight shifts of a register that has taken the byte in. -/
def Obligations.ChecksumTakesBytesInOrder : Prop :=
  (∀ (c : Config) (b : Byte), checksum16 c [b] = crc16Byte c.crc16Poly c.crc16Init b) ∧
  (∀ (c : Config) (bs : List Byte) (b : Byte), bs ≠ [] →
    checksum16 c (bs ++ [b]) = crc16Byte c.crc16Poly (checksum16 c bs) b) ∧
  (∀ (poly c : HalfWord) (b : Byte), crc16Byte poly c b =
    (fun r : HalfWord => if r[0] then (r >>> 1) ^^^ poly else r >>> 1)^[8] (c ^^^ b.setWidth 16))

/-- R104: the residue property, for every configuration; it fails for empty data under the default one. -/
def Obligations.TrailerGivesZeroResidue : Prop :=
  (∀ (c : Config) (d : List Byte), d ≠ [] →
    checksum16 c (d ++ [(checksum16 c d).extractLsb' 0 8, (checksum16 c d).extractLsb' 8 8]) = 0) ∧
  checksum16 Config.default [0x00, 0x00] = 0xB001

/-- R104's equivalence, where the polynomial's top bit is set: the register then loses nothing in a shift. -/
def Obligations.VerifiesIffTrailerMatches : Prop :=
  ∀ (c : Config) (bs : List Byte), c.crc16Poly.getLsbD 15 = true → 3 ≤ bs.length →
    (verify16 c bs = true ↔ checksum16 c (bs.take (bs.length - 2)) = le16 bs (bs.length - 2))

/-- R104's equivalence as the rule states it, for every admitted configuration. Expected to FAIL: with CRC16_POLY =
0x0001 and CRC16_INIT = 0 the list 00 03 00 verifies and its trailer is not its checksum (log entry 12). -/
def Obligations.VerifiesIffTrailerMatchesForEveryPolynomial : Prop :=
  ∀ (c : Config) (bs : List Byte), c.admitted = true → 3 ≤ bs.length →
    (verify16 c bs = true ↔ checksum16 c (bs.take (bs.length - 2)) = le16 bs (bs.length - 2))

/-- R105: the table form of one loop turn. -/
def Obligations.TableFormOfChecksumByte : Prop :=
  ∀ (poly c : HalfWord) (b : Byte),
    crc16Byte poly c b = (c >>> 8) ^^^ crc16Byte poly 0x0000 ((c ^^^ b.setWidth 16).extractLsb' 0 8)

/-- R106: every single-bit corruption of a frame that verifies is detected, for every non-zero polynomial (a breadth the
spec marks as its own general knowledge, G3). -/
def Obligations.SingleBitCorruptionDetected : Prop :=
  ∀ (c : Config) (f g : List Byte) (x : Byte) (k : Nat), c.crc16Poly ≠ 0 → k < 8 →
    verify16 c (f ++ x :: g) = true → verify16 c (f ++ (x ^^^ BitVec.twoPow 8 k) :: g) = false

/-- R108: the fold detects exactly the corruptions that flip an odd number of bits in some bit position. -/
def Obligations.FoldDetectsOddFlips : Prop :=
  ∀ bs cs : List Byte, cs.length = bs.length →
    (xor8 cs ≠ xor8 bs ↔
      ∃ k < 8, (List.zip bs cs).countP (fun q => q.1.getLsbD k != q.2.getLsbD k) % 2 = 1)

/-- R65, R107: a body folds to zero exactly when its last byte is the fold of the bytes before it, and the order of
the bytes does not matter. -/
def Obligations.FoldChecksTrailerInAnyOrder : Prop :=
  xor8 [] = 0x00 ∧
  (∀ (bs : List Byte) (x : Byte), xor8 (bs ++ [x]) = 0 ↔ x = xor8 bs) ∧
  (∀ bs cs : List Byte, bs.Perm cs → xor8 bs = xor8 cs)

/-- R10, R42: multi-byte fields are little-endian. -/
def Obligations.FieldsAreLittleEndian : Prop :=
  ∀ (l r : List Byte) (b0 b1 b2 b3 : Byte),
    (le16 (l ++ b0 :: b1 :: r) l.length).toNat = b0.toNat + 2 ^ 8 * b1.toNat ∧
    (le32 (l ++ b0 :: b1 :: b2 :: b3 :: r) l.length).toNat =
      b0.toNat + 2 ^ 8 * b1.toNat + 2 ^ 16 * b2.toNat + 2 ^ 24 * b3.toNat

/-- R10, R188 (two's complement is the spec's own general knowledge, G1; log entry 11): the signed reading of a raw
value and its range; the number of 1 bits is the number of values a mask asks for. -/
def Obligations.RawValuesAreTwosComplement : Prop :=
  ∀ u : Word, sint32 u = u.toInt ∧ -(2 ^ 31) ≤ sint32 u ∧ sint32 u < 2 ^ 31 ∧ (setBits u).length = popcount u
end

