-- ==== Sys2Proof/Laws/State.lean ====
section
/-! SUPPORT. One lemma per field per update of State, true by rfl. -/

namespace Sys2Proof.Machine

@[simp] theorem setDmxState_dmxState (d : DmxState) (s : State) : (setDmxState d s).dmxState = d := rfl
@[simp] theorem setDmxState_tlmBuf (d : DmxState) (s : State) : (setDmxState d s).tlmBuf = s.tlmBuf := rfl
@[simp] theorem setDmxState_rxState (d : DmxState) (s : State) : (setDmxState d s).rxState = s.rxState := rfl
@[simp] theorem setDmxState_rxBuf (d : DmxState) (s : State) : (setDmxState d s).rxBuf = s.rxBuf := rfl
@[simp] theorem setDmxState_pwrLatch (d : DmxState) (s : State) : (setDmxState d s).pwrLatch = s.pwrLatch := rfl
@[simp] theorem setDmxState_cfg (d : DmxState) (s : State) : (setDmxState d s).cfg = s.cfg := rfl
@[simp] theorem setDmxState_input (d : DmxState) (s : State) : (setDmxState d s).input = s.input := rfl
@[simp] theorem setDmxState_output (d : DmxState) (s : State) : (setDmxState d s).output = s.output := rfl

@[simp] theorem setTlmBuf_dmxState (bs : List Byte) (s : State) : (setTlmBuf bs s).dmxState = s.dmxState := rfl
@[simp] theorem setTlmBuf_tlmBuf (bs : List Byte) (s : State) : (setTlmBuf bs s).tlmBuf = bs := rfl
@[simp] theorem setTlmBuf_rxState (bs : List Byte) (s : State) : (setTlmBuf bs s).rxState = s.rxState := rfl
@[simp] theorem setTlmBuf_rxBuf (bs : List Byte) (s : State) : (setTlmBuf bs s).rxBuf = s.rxBuf := rfl
@[simp] theorem setTlmBuf_pwrLatch (bs : List Byte) (s : State) : (setTlmBuf bs s).pwrLatch = s.pwrLatch := rfl
@[simp] theorem setTlmBuf_cfg (bs : List Byte) (s : State) : (setTlmBuf bs s).cfg = s.cfg := rfl
@[simp] theorem setTlmBuf_input (bs : List Byte) (s : State) : (setTlmBuf bs s).input = s.input := rfl
@[simp] theorem setTlmBuf_output (bs : List Byte) (s : State) : (setTlmBuf bs s).output = s.output := rfl

@[simp] theorem setRxState_dmxState (r : RxState) (s : State) : (setRxState r s).dmxState = s.dmxState := rfl
@[simp] theorem setRxState_tlmBuf (r : RxState) (s : State) : (setRxState r s).tlmBuf = s.tlmBuf := rfl
@[simp] theorem setRxState_rxState (r : RxState) (s : State) : (setRxState r s).rxState = r := rfl
@[simp] theorem setRxState_rxBuf (r : RxState) (s : State) : (setRxState r s).rxBuf = s.rxBuf := rfl
@[simp] theorem setRxState_pwrLatch (r : RxState) (s : State) : (setRxState r s).pwrLatch = s.pwrLatch := rfl
@[simp] theorem setRxState_cfg (r : RxState) (s : State) : (setRxState r s).cfg = s.cfg := rfl
@[simp] theorem setRxState_input (r : RxState) (s : State) : (setRxState r s).input = s.input := rfl
@[simp] theorem setRxState_output (r : RxState) (s : State) : (setRxState r s).output = s.output := rfl

@[simp] theorem setRxBuf_dmxState (bs : List Byte) (s : State) : (setRxBuf bs s).dmxState = s.dmxState := rfl
@[simp] theorem setRxBuf_tlmBuf (bs : List Byte) (s : State) : (setRxBuf bs s).tlmBuf = s.tlmBuf := rfl
@[simp] theorem setRxBuf_rxState (bs : List Byte) (s : State) : (setRxBuf bs s).rxState = s.rxState := rfl
@[simp] theorem setRxBuf_rxBuf (bs : List Byte) (s : State) : (setRxBuf bs s).rxBuf = bs := rfl
@[simp] theorem setRxBuf_pwrLatch (bs : List Byte) (s : State) : (setRxBuf bs s).pwrLatch = s.pwrLatch := rfl
@[simp] theorem setRxBuf_cfg (bs : List Byte) (s : State) : (setRxBuf bs s).cfg = s.cfg := rfl
@[simp] theorem setRxBuf_input (bs : List Byte) (s : State) : (setRxBuf bs s).input = s.input := rfl
@[simp] theorem setRxBuf_output (bs : List Byte) (s : State) : (setRxBuf bs s).output = s.output := rfl

@[simp] theorem setPwrLatch_dmxState (p : Bool) (s : State) : (setPwrLatch p s).dmxState = s.dmxState := rfl
@[simp] theorem setPwrLatch_tlmBuf (p : Bool) (s : State) : (setPwrLatch p s).tlmBuf = s.tlmBuf := rfl
@[simp] theorem setPwrLatch_rxState (p : Bool) (s : State) : (setPwrLatch p s).rxState = s.rxState := rfl
@[simp] theorem setPwrLatch_rxBuf (p : Bool) (s : State) : (setPwrLatch p s).rxBuf = s.rxBuf := rfl
@[simp] theorem setPwrLatch_pwrLatch (p : Bool) (s : State) : (setPwrLatch p s).pwrLatch = p := rfl
@[simp] theorem setPwrLatch_cfg (p : Bool) (s : State) : (setPwrLatch p s).cfg = s.cfg := rfl
@[simp] theorem setPwrLatch_input (p : Bool) (s : State) : (setPwrLatch p s).input = s.input := rfl
@[simp] theorem setPwrLatch_output (p : Bool) (s : State) : (setPwrLatch p s).output = s.output := rfl

@[simp] theorem setInput_dmxState (ts : List Transaction) (s : State) : (setInput ts s).dmxState = s.dmxState := rfl
@[simp] theorem setInput_tlmBuf (ts : List Transaction) (s : State) : (setInput ts s).tlmBuf = s.tlmBuf := rfl
@[simp] theorem setInput_rxState (ts : List Transaction) (s : State) : (setInput ts s).rxState = s.rxState := rfl
@[simp] theorem setInput_rxBuf (ts : List Transaction) (s : State) : (setInput ts s).rxBuf = s.rxBuf := rfl
@[simp] theorem setInput_pwrLatch (ts : List Transaction) (s : State) : (setInput ts s).pwrLatch = s.pwrLatch := rfl
@[simp] theorem setInput_cfg (ts : List Transaction) (s : State) : (setInput ts s).cfg = s.cfg := rfl
@[simp] theorem setInput_input (ts : List Transaction) (s : State) : (setInput ts s).input = ts := rfl
@[simp] theorem setInput_output (ts : List Transaction) (s : State) : (setInput ts s).output = s.output := rfl

@[simp] theorem emit_dmxState (e : Event) (s : State) : (emit e s).dmxState = s.dmxState := rfl
@[simp] theorem emit_tlmBuf (e : Event) (s : State) : (emit e s).tlmBuf = s.tlmBuf := rfl
@[simp] theorem emit_rxState (e : Event) (s : State) : (emit e s).rxState = s.rxState := rfl
@[simp] theorem emit_rxBuf (e : Event) (s : State) : (emit e s).rxBuf = s.rxBuf := rfl
@[simp] theorem emit_pwrLatch (e : Event) (s : State) : (emit e s).pwrLatch = s.pwrLatch := rfl
@[simp] theorem emit_cfg (e : Event) (s : State) : (emit e s).cfg = s.cfg := rfl
@[simp] theorem emit_input (e : Event) (s : State) : (emit e s).input = s.input := rfl
@[simp] theorem emit_output (e : Event) (s : State) : (emit e s).output = s.output ++ [e] := rfl

@[simp] theorem present_input (t : Transaction) (s : State) : (present t s).input = t :: s.input := rfl

/-- Two states are equal when their fields are. -/
theorem State.eq_of_fields {s t : State} (h1 : s.dmxState = t.dmxState) (h2 : s.tlmBuf = t.tlmBuf)
    (h3 : s.rxState = t.rxState) (h4 : s.rxBuf = t.rxBuf) (h5 : s.pwrLatch = t.pwrLatch) (h6 : s.cfg = t.cfg)
    (h7 : s.input = t.input) (h8 : s.output = t.output) : s = t := by
  cases s; cases t; simp_all

end Sys2Proof.Machine
end

