-- ==== Sys2Proof/Laws/Ops.lean ====
section
/-! SUPPORT. What the shared operations of Machine/Ops.lean can do. -/

namespace Sys2Proof.Machine

theorem whenAdmitted_of_admitted {s : State} (h : s.cfg.admitted = true) (k : Host.Outcome State Fault Refusal) :
    whenAdmitted s k = k := by simp [whenAdmitted, h]

theorem whenAdmitted_of_not_admitted {s : State} (h : s.cfg.admitted = false)
    (k : Host.Outcome State Fault Refusal) : whenAdmitted s k = .refused .configNotAdmitted := by
  simp [whenAdmitted, h]

/-- The guard answers a next state only under an admitted configuration, and then what it guards. -/
theorem whenAdmitted_eq_next {s t : State} {k : Host.Outcome State Fault Refusal} :
    whenAdmitted s k = .next t ↔ s.cfg.admitted = true ∧ k = .next t := by
  unfold whenAdmitted
  split <;> simp_all

theorem fetch_of_nil {s : State} (h : s.input = []) : fetch s = none := by simp [fetch, h]

theorem fetch_of_cons {s : State} {t : Transaction} {rest : List Transaction} (h : s.input = t :: rest) :
    fetch s = some (t, setInput rest s) := by simp [fetch, h]

@[simp] theorem fetch_present (t : Transaction) (s : State) : fetch (present t s) = some (t, s) := rfl

@[simp] theorem forBytes_nil (f : Byte → State → State) (s : State) : forBytes f [] s = s := rfl

@[simp] theorem forBytes_cons (f : Byte → State → State) (b : Byte) (bs : List Byte) (s : State) :
    forBytes f (b :: bs) s = forBytes f bs (f b s) := rfl

theorem forBytes_append (f : Byte → State → State) (bs cs : List Byte) (s : State) :
    forBytes f (bs ++ cs) s = forBytes f cs (forBytes f bs s) := by
  induction bs generalizing s with
  | nil => rfl
  | cons b bs ih => simp [ih]

/-- What every turn keeps, the loop keeps. -/
theorem forBytes_keeps {α : Type} (g : State → α) (f : Byte → State → State) (h : ∀ b s, g (f b s) = g s)
    (bs : List Byte) (s : State) : g (forBytes f bs s) = g s := by
  induction bs generalizing s with
  | nil => rfl
  | cons b bs ih => rw [forBytes_cons, ih, h]

/-- An invariant of every turn is one of the loop. -/
theorem forBytes_inv (P : State → Prop) (f : Byte → State → State) (h : ∀ b s, P s → P (f b s))
    (bs : List Byte) {s : State} (hs : P s) : P (forBytes f bs s) := by
  induction bs generalizing s with
  | nil => exact hs
  | cons b bs ih => exact ih (h b s hs)

/-- A loop that emits one event per byte. -/
theorem forBytes_emit (e : Byte → Event) (bs : List Byte) (s : State) :
    forBytes (fun b => emit (e b)) bs s = { s with output := s.output ++ bs.map e } := by
  induction bs generalizing s with
  | nil => simp
  | cons b bs ih => simp [ih, emit]

/-- The two ways a step can answer a next state. -/
theorem step_cases {s t : State} (h : step s = .next t) :
    (s.input = [] ∧ s.cfg.admitted = true ∧ t = s) ∨
    ∃ x rest i, s.input = x :: rest ∧ decode x = .ok i ∧ exec i (setInput rest s) = .next t := by
  unfold step at h
  cases hi : s.input with
  | nil =>
    rw [fetch_of_nil hi] at h
    obtain ⟨ha, hk⟩ := whenAdmitted_eq_next.mp h
    exact .inl ⟨rfl, ha, by simpa using hk.symm⟩
  | cons x rest =>
    rw [fetch_of_cons hi] at h
    simp only at h
    split at h
    · exact .inr ⟨x, rest, _, rfl, by assumption, h⟩
    · cases h

end Sys2Proof.Machine
end

