-- ==== Sys2Proof/Laws/Codec.lean ====
section
/-! SUPPORT. What the command sink, the validator and the outbound loop can do. -/

namespace Sys2Proof.Machine

/-- R150: everything the receive buffer can do with a byte. -/
theorem rxAppend_cases (b : Byte) (s : State) :
    (s.rxState = .idle ∧ rxAppend b s = { s with rxBuf := [b], rxState := .active }) ∨
    (s.rxState = .active ∧ s.rxBuf.length < s.cfg.cmdBufMax ∧ rxAppend b s = { s with rxBuf := s.rxBuf ++ [b] }) ∨
    (s.rxState = .active ∧ s.cfg.cmdBufMax ≤ s.rxBuf.length ∧ rxAppend b s = { s with rxState := .error }) ∨
    (s.rxState = .error ∧ rxAppend b s = s) := by
  unfold rxAppend
  cases h : s.rxState with
  | idle => exact .inl ⟨rfl, rfl⟩
  | active =>
    by_cases hl : s.rxBuf.length < s.cfg.cmdBufMax
    · exact .inr (.inl ⟨rfl, hl, by simp [hl, setRxBuf, h]⟩)
    · exact .inr (.inr (.inl ⟨rfl, by omega, by simp [hl, setRxState]⟩))
  | error => exact .inr (.inr (.inr ⟨rfl, rfl⟩))

/-- The receive buffer writes `rx_state` and `rx_buf` and nothing else. -/
theorem rxAppend_frame (b : Byte) (s : State) :
    rxAppend b s = { s with rxState := (rxAppend b s).rxState, rxBuf := (rxAppend b s).rxBuf } := by
  rcases rxAppend_cases b s with ⟨_, h⟩ | ⟨_, _, h⟩ | ⟨_, _, h⟩ | ⟨_, h⟩ <;> rw [h]

@[simp] theorem rxAppend_dmxState (b : Byte) (s : State) : (rxAppend b s).dmxState = s.dmxState := by
  rw [rxAppend_frame]
@[simp] theorem rxAppend_tlmBuf (b : Byte) (s : State) : (rxAppend b s).tlmBuf = s.tlmBuf := by
  rw [rxAppend_frame]
@[simp] theorem rxAppend_pwrLatch (b : Byte) (s : State) : (rxAppend b s).pwrLatch = s.pwrLatch := by
  rw [rxAppend_frame]
@[simp] theorem rxAppend_cfg (b : Byte) (s : State) : (rxAppend b s).cfg = s.cfg := by
  rw [rxAppend_frame]
@[simp] theorem rxAppend_input (b : Byte) (s : State) : (rxAppend b s).input = s.input := by
  rw [rxAppend_frame]
@[simp] theorem rxAppend_output (b : Byte) (s : State) : (rxAppend b s).output = s.output := by
  rw [rxAppend_frame]

/-- R29 (2), (3) through the receive buffer. -/
theorem rxAppend_receiverInv (b : Byte) {s : State} (hm : 1 ≤ s.cfg.cmdBufMax) (h : ReceiverInv s) :
    ReceiverInv (rxAppend b s) := by
  obtain ⟨h1, h2, h3, h4⟩ := h
  rcases rxAppend_cases b s with ⟨hs, h⟩ | ⟨hs, hl, h⟩ | ⟨hs, hl, h⟩ | ⟨hs, h⟩ <;>
    (rw [h]; simp_all [ReceiverInv] <;> omega)

@[simp] theorem cmdSink_dmxState (b : Byte) (s : State) : (cmdSink b s).dmxState = s.dmxState := by simp [cmdSink]
@[simp] theorem cmdSink_tlmBuf (b : Byte) (s : State) : (cmdSink b s).tlmBuf = s.tlmBuf := by simp [cmdSink]
@[simp] theorem cmdSink_pwrLatch (b : Byte) (s : State) : (cmdSink b s).pwrLatch = s.pwrLatch := by simp [cmdSink]
@[simp] theorem cmdSink_cfg (b : Byte) (s : State) : (cmdSink b s).cfg = s.cfg := by simp [cmdSink]
@[simp] theorem cmdSink_input (b : Byte) (s : State) : (cmdSink b s).input = s.input := by simp [cmdSink]
@[simp] theorem cmdSink_output (b : Byte) (s : State) : (cmdSink b s).output = s.output ++ [.cmdByte b] := by
  simp [cmdSink]

theorem cmdSinkAll_append (xs ys : List Byte) (s : State) :
    cmdSinkAll (xs ++ ys) s = cmdSinkAll ys (cmdSinkAll xs s) := forBytes_append _ _ _ _

@[simp] theorem cmdSinkAll_nil (s : State) : cmdSinkAll [] s = s := rfl
@[simp] theorem cmdSinkAll_cons (b : Byte) (bs : List Byte) (s : State) :
    cmdSinkAll (b :: bs) s = cmdSinkAll bs (cmdSink b s) := rfl
@[simp] theorem cmdSinkAll_dmxState (bs : List Byte) (s : State) : (cmdSinkAll bs s).dmxState = s.dmxState :=
  forBytes_keeps State.dmxState _ cmdSink_dmxState bs s
@[simp] theorem cmdSinkAll_tlmBuf (bs : List Byte) (s : State) : (cmdSinkAll bs s).tlmBuf = s.tlmBuf :=
  forBytes_keeps State.tlmBuf _ cmdSink_tlmBuf bs s
@[simp] theorem cmdSinkAll_pwrLatch (bs : List Byte) (s : State) : (cmdSinkAll bs s).pwrLatch = s.pwrLatch :=
  forBytes_keeps State.pwrLatch _ cmdSink_pwrLatch bs s
@[simp] theorem cmdSinkAll_cfg (bs : List Byte) (s : State) : (cmdSinkAll bs s).cfg = s.cfg :=
  forBytes_keeps State.cfg _ cmdSink_cfg bs s
@[simp] theorem cmdSinkAll_input (bs : List Byte) (s : State) : (cmdSinkAll bs s).input = s.input :=
  forBytes_keeps State.input _ cmdSink_input bs s
@[simp] theorem cmdSinkAll_output (bs : List Byte) (s : State) :
    (cmdSinkAll bs s).output = s.output ++ bs.map .cmdByte := by
  induction bs generalizing s with
  | nil => simp
  | cons b bs ih => simp [ih]

/-- The receive buffer takes no notice of the demultiplexer's state. -/
theorem rxAppend_setDmxState (b : Byte) (d : DmxState) (s : State) :
    rxAppend b (setDmxState d s) = setDmxState d (rxAppend b s) := by
  unfold rxAppend
  cases h : s.rxState with
  | idle => simp [h, setDmxState, setRxState, setRxBuf]
  | active => by_cases hl : s.rxBuf.length < s.cfg.cmdBufMax <;> simp [h, hl, setDmxState, setRxState, setRxBuf]
  | error => simp [h]

/-- The command sink takes no notice of the demultiplexer's state. -/
theorem cmdSinkAll_setDmxState (bs : List Byte) (d : DmxState) (s : State) :
    cmdSinkAll bs (setDmxState d s) = setDmxState d (cmdSinkAll bs s) := by
  induction bs generalizing s with
  | nil => rfl
  | cons b bs ih =>
    rw [cmdSinkAll_cons, cmdSinkAll_cons, ← ih]
    exact congrArg (cmdSinkAll bs) (rxAppend_setDmxState b d (emit (.cmdByte b) s))

/-- R29 (2), (3) through the command sink. -/
theorem cmdSinkAll_receiverInv (bs : List Byte) {s : State} (hm : 1 ≤ s.cfg.cmdBufMax) (h : ReceiverInv s) :
    ReceiverInv (cmdSinkAll bs s) :=
  (forBytes_inv (fun s => 1 ≤ s.cfg.cmdBufMax ∧ ReceiverInv s) cmdSink
    (fun b s h => ⟨by simpa using h.1, rxAppend_receiverInv b h.1 (s := emit (.cmdByte b) s) h.2⟩) bs ⟨hm, h⟩).2

/-- R153: the validator emits one event and writes nothing. -/
theorem cmdValidate_cases (frame : List Byte) (s : State) :
    (frame.length < 4 ∧ cmdValidate frame s = emit (.cmdRxError .short) s) ∨
    (4 ≤ frame.length ∧ checksum16 s.cfg frame ≠ 0 ∧ cmdValidate frame s = emit (.cmdRxError .crc) s) ∨
    (4 ≤ frame.length ∧ checksum16 s.cfg frame = 0 ∧
      cmdValidate frame s = emit (.cmdFrame (byteAt frame 0) (slice frame 1 (frame.length - 2))) s) := by
  by_cases h : frame.length < 4
  · exact .inl ⟨h, by simp [cmdValidate, cmdMinFrame, h]⟩
  · by_cases hv : checksum16 s.cfg frame = 0
    · exact .inr (.inr ⟨by omega, hv, by simp [cmdValidate, cmdMinFrame, h, verify16, hv]⟩)
    · exact .inr (.inl ⟨by omega, hv, by rw [cmdValidate, if_neg (by simpa [cmdMinFrame] using h),
        if_pos (by simpa [verify16] using hv)]⟩)

/-- R152: everything the report can do. -/
theorem boundaryReport_cases (s : State) :
    (s.rxState = .idle ∧ boundaryReport s = s) ∨
    (s.rxState = .active ∧ boundaryReport s = cmdValidate s.rxBuf s) ∨
    (s.rxState = .error ∧ boundaryReport s = emit (.cmdRxError .overflow) s) := by
  unfold boundaryReport
  cases s.rxState <;> simp

/-- R155: the outbound loop emits the bytes in order and writes nothing. -/
theorem txBytes_eq (bs : List Byte) (s : State) :
    txBytes bs s = { s with output := s.output ++ bs.map .txByte } := forBytes_emit .txByte bs s

end Sys2Proof.Machine
end

