-- ==== Sys2Proof/Laws/Telemetry.lean ====
section
/-! SUPPORT. What the telemetry decoder can do. -/

namespace Sys2Proof.Machine

/-- R180 to R192: the decoder emits one of its results, or latches and emits the recovery action, or does nothing
because the latch is set. -/
theorem tlmDecode_cases (body : List Byte) (s : State) :
    (∃ e, isDecoderResult e = true ∧ e ≠ .pwrRecovery ∧ tlmDecode body s = emit e s) ∨
    (s.pwrLatch = false ∧ tlmDecode body s = emit .pwrRecovery (setPwrLatch true s)) ∨
    (s.pwrLatch = true ∧ tlmDecode body s = s) := by
  unfold tlmDecode
  split
  · exact .inl ⟨_, rfl, by simp, rfl⟩
  · split
    · unfold tlmMeas
      split
      · exact .inl ⟨_, rfl, by simp, rfl⟩
      · split
        · exact .inl ⟨_, rfl, by simp, rfl⟩
        · exact .inl ⟨_, rfl, by simp, rfl⟩
    · split
      · unfold tlmPower
        cases h : s.pwrLatch with
        | false => exact .inr (.inl ⟨rfl, by simp⟩)
        | true => exact .inr (.inr ⟨rfl, by simp⟩)
      · exact .inl ⟨_, rfl, by simp, rfl⟩

/-- R180: the decoder writes `pwr_latch` and emits; every other field stays. -/
theorem tlmDecode_frame (body : List Byte) (s : State) :
    tlmDecode body s =
      { s with pwrLatch := (tlmDecode body s).pwrLatch, output := (tlmDecode body s).output } := by
  rcases tlmDecode_cases body s with ⟨e, _, _, h⟩ | ⟨_, h⟩ | ⟨_, h⟩ <;> rw [h] <;> rfl

@[simp] theorem tlmDecode_dmxState (body : List Byte) (s : State) :
    (tlmDecode body s).dmxState = s.dmxState := by rw [tlmDecode_frame]
@[simp] theorem tlmDecode_tlmBuf (body : List Byte) (s : State) :
    (tlmDecode body s).tlmBuf = s.tlmBuf := by rw [tlmDecode_frame]
@[simp] theorem tlmDecode_rxState (body : List Byte) (s : State) :
    (tlmDecode body s).rxState = s.rxState := by rw [tlmDecode_frame]
@[simp] theorem tlmDecode_rxBuf (body : List Byte) (s : State) :
    (tlmDecode body s).rxBuf = s.rxBuf := by rw [tlmDecode_frame]
@[simp] theorem tlmDecode_cfg (body : List Byte) (s : State) :
    (tlmDecode body s).cfg = s.cfg := by rw [tlmDecode_frame]
@[simp] theorem tlmDecode_input (body : List Byte) (s : State) :
    (tlmDecode body s).input = s.input := by rw [tlmDecode_frame]

end Sys2Proof.Machine
end

