-- ==== Sys2Proof/Laws/Demux.lean ====
section
/-! SUPPORT. What RX_BYTE, and with it any transaction, can do. -/

namespace Sys2Proof.Machine

/-- R120: everything RX_BYTE can do when it answers a next state: hold the byte, route the held bytes and perhaps the
byte itself (after a diagnostic, in `SOF_4`), start a capture, extend one, or complete one. -/
theorem dmxByte_cases {b : Byte} {s t : State} (h : dmxByte b s = .next t) :
    (s.dmxState ≠ .telemetryPayload ∧ s.dmxState ≠ .sof4 ∧
      ∃ d, d ≠ .telemetryPayload ∧ held s.cfg s.dmxState ++ [b] = held s.cfg d ∧ t = setDmxState d s) ∨
    (s.dmxState ≠ .telemetryPayload ∧ s.dmxState ≠ .sof4 ∧ b = s.cfg.sof[0] ∧
      t = setDmxState .sof1 (cmdSinkAll (held s.cfg s.dmxState) s)) ∨
    (s.dmxState ≠ .telemetryPayload ∧ s.dmxState ≠ .sof4 ∧ b ≠ s.cfg.sof[0] ∧
      t = setDmxState .commandByte (cmdSinkAll (held s.cfg s.dmxState ++ [b]) s)) ∨
    (s.dmxState = .sof4 ∧ ∃ c, (b.toNat < s.cfg.tlmMinLen.toNat ∨ s.cfg.tlmMaxLen.toNat < b.toNat) ∧
      t = setDmxState .commandByte (cmdSinkAll (held s.cfg .sof4 ++ [b]) (emit (.dmxLenReject c b) s))) ∨
    (s.dmxState = .sof4 ∧ s.cfg.tlmMinLen.toNat ≤ b.toNat ∧ b.toNat ≤ s.cfg.tlmMaxLen.toNat ∧
      t = setDmxState .telemetryPayload (setTlmBuf [b] s)) ∨
    (s.dmxState = .telemetryPayload ∧
      (s.tlmBuf ++ [b]).length + s.cfg.tlmLenBias.toNat ≠ (byteAt (s.tlmBuf ++ [b]) 0).toNat ∧
      t = setTlmBuf (s.tlmBuf ++ [b]) s) ∨
    (CompletesFrame s b (s.tlmBuf ++ [b]) ∧ t = tlmDecode (s.tlmBuf ++ [b])
      (emit (.tlmFrame (s.tlmBuf ++ [b])) (setDmxState .commandByte (setTlmBuf [] s)))) := by
  have hsof : s.cfg.sof.toList = [s.cfg.sof[0], s.cfg.sof[1], s.cfg.sof[2], s.cfg.sof[3]] := by
    apply List.ext_getElem <;> simp
    intro i hi
    match i, hi with
    | 0, _ => rfl
    | 1, _ => rfl
    | 2, _ => rfl
    | 3, _ => rfl
  unfold dmxByte at h
  cases hd : s.dmxState <;> rw [hd] at h <;> simp only [Host.Outcome.next.injEq] at h
  case commandByte =>
    unfold dmxIdle at h
    split at h
    · exact .inl ⟨by simp, by simp, .sof1, by simp, by simp [held, heldCount, *], h.symm⟩
    · exact .inr (.inr (.inl ⟨by simp, by simp, by assumption, by
        subst h
        apply State.eq_of_fields <;> simp [held, heldCount, hd]⟩))
  case sof1 =>
    unfold dmxMatch at h
    split at h
    · exact .inl ⟨by simp, by simp, .sof2, by simp, by simp [held, heldCount, *], h.symm⟩
    · split at h
      · exact .inr (.inl ⟨by simp, by simp, by assumption, by rw [← h, dmxRestart, hd]⟩)
      · exact .inr (.inr (.inl ⟨by simp, by simp, by assumption, by
          rw [← h, dmxFail, hd, cmdSinkAll_append]; rfl⟩))
  case sof2 =>
    unfold dmxMatch at h
    split at h
    · exact .inl ⟨by simp, by simp, .sof3, by simp, by simp [held, heldCount, *], h.symm⟩
    · split at h
      · exact .inr (.inl ⟨by simp, by simp, by assumption, by rw [← h, dmxRestart, hd]⟩)
      · exact .inr (.inr (.inl ⟨by simp, by simp, by assumption, by
          rw [← h, dmxFail, hd, cmdSinkAll_append]; rfl⟩))
  case sof3 =>
    unfold dmxMatch at h
    split at h
    · exact .inl ⟨by simp, by simp, .sof4, by simp, by simp [held, heldCount, *], h.symm⟩
    · split at h
      · exact .inr (.inl ⟨by simp, by simp, by assumption, by rw [← h, dmxRestart, hd]⟩)
      · exact .inr (.inr (.inl ⟨by simp, by simp, by assumption, by
          rw [← h, dmxFail, hd, cmdSinkAll_append]; rfl⟩))
  case sof4 =>
    unfold dmxLength at h
    split at h
    · exact .inr (.inr (.inr (.inl ⟨rfl, .small, .inl (by assumption), by
        rw [← h, dmxLenReject, hd, cmdSinkAll_append]; rfl⟩)))
    · split at h
      · exact .inr (.inr (.inr (.inl ⟨rfl, .large, .inr (by assumption), by
          rw [← h, dmxLenReject, hd, cmdSinkAll_append]; rfl⟩)))
      · exact .inr (.inr (.inr (.inr (.inl ⟨rfl, by omega, by omega, h.symm⟩))))
  case telemetryPayload =>
    unfold dmxCapture at h
    split at h
    · next hc =>
      unfold dmxComplete at h
      split at h
      · cases h
      · exact .inr (.inr (.inr (.inr (.inr (.inr ⟨⟨hd, rfl, by simpa [isBodyLength] using hc, by omega⟩,
          by simpa using h.symm⟩)))))
    · next hc =>
      exact .inr (.inr (.inr (.inr (.inr (.inl ⟨rfl, by simpa [isBodyLength] using hc,
        by simpa using h.symm⟩)))))

end Sys2Proof.Machine
end

