-- ==== Sys2Proof/Laws/Events.lean ====
section
/-! SUPPORT. What can be read off lists of events and off a completed frame; the marker as a list. -/

namespace Sys2Proof.Machine

theorem cmdBytes_append (es fs : List Event) : cmdBytes (es ++ fs) = cmdBytes es ++ cmdBytes fs := by
  induction es with
  | nil => rfl
  | cons e es ih => cases e <;> simp [cmdBytes, ih]

@[simp] theorem cmdBytes_map_cmdByte (bs : List Byte) : cmdBytes (bs.map .cmdByte) = bs := by
  induction bs <;> simp [cmdBytes, *]

@[simp] theorem cmdBytes_map_txByte (bs : List Byte) : cmdBytes (bs.map .txByte) = [] := by
  induction bs <;> simp [cmdBytes, *]

theorem routedBytes_append (c : Config) (es fs : List Event) :
    routedBytes c (es ++ fs) = routedBytes c es ++ routedBytes c fs := by
  induction es with
  | nil => rfl
  | cons e es ih => cases e <;> simp [routedBytes, ih]

@[simp] theorem routedBytes_map_cmdByte (c : Config) (bs : List Byte) :
    routedBytes c (bs.map .cmdByte) = bs := by
  induction bs <;> simp [routedBytes, *]

@[simp] theorem routedBytes_map_txByte (c : Config) (bs : List Byte) :
    routedBytes c (bs.map .txByte) = [] := by
  induction bs <;> simp [routedBytes, *]

theorem lineBytes_append (is js : List Instr) : lineBytes (is ++ js) = lineBytes is ++ lineBytes js := by
  induction is with
  | nil => rfl
  | cons i is ih => cases i <;> simp [lineBytes, ih]

theorem runAll_append (is js : List Instr) (s : State) :
    runAll (is ++ js) s = (runAll is s).bind (runAll js) := by
  induction is generalizing s with
  | nil => rfl
  | cons i is ih =>
    simp only [List.cons_append, runAll]
    split <;> simp [ih]

/-- The marker's four bytes as a list. -/
theorem sof_toList (c : Config) : c.sof.toList = [c.sof[0], c.sof[1], c.sof[2], c.sof[3]] := by
  apply List.ext_getElem <;> simp
  intro i hi
  match i, hi with
  | 0, _ => rfl
  | 1, _ => rfl
  | 2, _ => rfl
  | 3, _ => rfl

/-- R23: what each state holds. -/
@[simp] theorem held_commandByte (c : Config) : held c .commandByte = [] := rfl
@[simp] theorem held_telemetryPayload (c : Config) : held c .telemetryPayload = [] := rfl
theorem held_sof1 (c : Config) : held c .sof1 = [c.sof[0]] := by simp [held, heldCount, sof_toList]
theorem held_sof4 (c : Config) : held c .sof4 = c.sof.toList := by simp [held, heldCount]

@[simp] theorem afterFrame_dmxState (s : State) (body : List Byte) (es : List Event) :
    (afterFrame s body es).dmxState = .commandByte := rfl
@[simp] theorem afterFrame_tlmBuf (s : State) (body : List Byte) (es : List Event) :
    (afterFrame s body es).tlmBuf = [] := rfl
@[simp] theorem afterFrame_rxState (s : State) (body : List Byte) (es : List Event) :
    (afterFrame s body es).rxState = s.rxState := rfl
@[simp] theorem afterFrame_rxBuf (s : State) (body : List Byte) (es : List Event) :
    (afterFrame s body es).rxBuf = s.rxBuf := rfl
@[simp] theorem afterFrame_pwrLatch (s : State) (body : List Byte) (es : List Event) :
    (afterFrame s body es).pwrLatch = s.pwrLatch := rfl
@[simp] theorem afterFrame_cfg (s : State) (body : List Byte) (es : List Event) :
    (afterFrame s body es).cfg = s.cfg := rfl
@[simp] theorem afterFrame_input (s : State) (body : List Byte) (es : List Event) :
    (afterFrame s body es).input = s.input := rfl
@[simp] theorem afterFrame_output (s : State) (body : List Byte) (es : List Event) :
    (afterFrame s body es).output = s.output ++ .tlmFrame body :: es := rfl

/-- R129: the operations of a completed frame, as the state `afterFrame` names. -/
theorem emit_tlmFrame_eq_afterFrame (s : State) (body : List Byte) :
    emit (.tlmFrame body) (setDmxState .commandByte (setTlmBuf [] s)) = afterFrame s body [] := rfl

theorem emit_afterFrame (s : State) (body : List Byte) (es : List Event) (e : Event) :
    emit e (afterFrame s body es) = afterFrame s body (es ++ [e]) := by simp [emit, afterFrame]

/-- R7: what an admitted configuration gives, clause by clause. -/
theorem admitted_clauses {c : Config} (h : c.admitted = true) :
    c.tlmLenBias.toNat + 7 ≤ c.tlmMinLen.toNat ∧ c.tlmMinLen.toNat ≤ c.tlmMaxLen.toNat ∧
    c.msgidMeas ≠ c.msgidPwr ∧ 4 ≤ c.cmdBufMax ∧ c.crc16Poly ≠ 0 := by
  simp only [Config.admitted, Config.lenHoldsHeader, Config.lenOrdered, Config.idsDiffer, Config.bufHoldsFrame,
    Config.polyNonzero, Bool.and_eq_true, decide_eq_true_eq] at h
  obtain ⟨⟨⟨⟨h1, h2⟩, h3⟩, h4⟩, h5⟩ := h
  exact ⟨h1, h2, h3, h4, h5⟩

end Sys2Proof.Machine
end

