-- ==== Sys2Proof/Laws/PerInstr.lean ====
section
/-! SUPPORT. Statements made for every transaction, one lemma per constructor. -/

namespace Sys2Proof.Laws.Spelled

/-- R70, R71 to R74: the words of a transaction are well formed, its header word is tag, zero bits and data byte, and
the operand list is SEND's payload or empty. -/
def Statement (i : Instr) : Prop :=
  (encode i).wellFormed = true ∧
  (encode i).header.toNat =
    (match i with
      | .powerOn => 0x0000
      | .rxByte b => 0x1000 + b.toNat
      | .boundary => 0x2000
      | .send a _ => 0x3000 + a.toNat) ∧
  (encode i).operand = (match i with
      | .powerOn => []
      | .rxByte _ => []
      | .boundary => []
      | .send _ p => p)

/-- R70: the number a header word with clear reserved bits is. -/
theorem headerOf_toNat (tag : BitVec 4) (data : Byte) : (headerOf tag data).toNat = tag.toNat * 0x1000 + data.toNat := by
  have hd : data.toNat < 2 ^ 8 := data.isLt
  have h0 : BitVec.toNat (0 : BitVec 4) = 0 := rfl
  simp only [headerOf, BitVec.toNat_append, h0]
  rw [← Nat.shiftLeft_add_eq_or_of_lt hd, Nat.shiftLeft_eq, ← Nat.shiftLeft_add_eq_or_of_lt (by decide), Nat.shiftLeft_eq]
  omega

theorem powerOn : Statement .powerOn := by refine ⟨?_, ?_, ?_⟩ <;> decide

theorem rxByte (b : Byte) : Statement (.rxByte b) := by
  have hb : b.toNat < 256 := b.isLt
  have ht : BitVec.toNat (0x1 : BitVec 4) = 1 := rfl
  refine ⟨?_, ?_, rfl⟩
  · simp only [Transaction.wellFormed, Transaction.reservedClear, Transaction.tagInUse, Transaction.dataFits,
      Transaction.operandFits, encode, headerOf_toNat, Bool.and_eq_true, decide_eq_true_eq, ht]
    exact ⟨⟨⟨by omega, by omega⟩, by omega⟩, fun _ => trivial⟩
  · simp only [encode, headerOf_toNat, ht]

theorem boundary : Statement .boundary := by refine ⟨?_, ?_, ?_⟩ <;> decide

theorem send (a : Byte) (p : List Byte) : Statement (.send a p) := by
  have ha : a.toNat < 256 := a.isLt
  have ht : BitVec.toNat (0x3 : BitVec 4) = 3 := rfl
  refine ⟨?_, ?_, rfl⟩
  · simp only [Transaction.wellFormed, Transaction.reservedClear, Transaction.tagInUse, Transaction.dataFits,
      Transaction.operandFits, encode, headerOf_toNat, Bool.and_eq_true, decide_eq_true_eq, ht]
    omega
  · simp only [encode, headerOf_toNat, ht]

end Sys2Proof.Laws.Spelled
end

