-- ==== Sys2Proof/Tests/Slice0.lean ====
section
/-! SUPPORT. The model's own tests: ill-formed terms that the checks refuse, words written out from the spec's encoding,
at most two single steps per transaction with their results from 95_test_vectors.md, and for every obligation with
hypotheses a witness that meets them all. -/

namespace Sys2Proof.Tests

open Sys2Proof.Machine

set_option maxRecDepth 20000

/-- A state under the default configuration with nothing presented and nothing emitted. -/
def st (d : DmxState) (tlm : List Byte) (r : RxState) (rx : List Byte) (latch : Bool) : State :=
  { State.reset with dmxState := d, tlmBuf := tlm, rxState := r, rxBuf := rx, pwrLatch := latch }

/-- The default configuration with `CMD_BUF_MAX = 8`. -/
def small : Config := { Config.default with cmdBufMax := 8 }

/-- The default configuration with `SOF_FLUSH_ON_BOUNDARY = true`. -/
def flush : Config := { Config.default with sofFlushOnBoundary := true }

/-- The default configuration with `TLM_LEN_BIAS = 4`. -/
def biased : Config := { Config.default with tlmLenBias := .fromMarker }

/-- The default configuration with the self-overlapping marker `AA AA 55 55` of vector DMX-14. -/
def overlapping : Config := { Config.default with sof := #v[0xAA, 0xAA, 0x55, 0x55] }

/-! ### WellFormed: an ill-formed term for each check -/

theorem test_default_admitted : Config.default.admitted = true := by decide
theorem test_refuses_short_min_len : Config.admitted { biased with tlmMinLen := 10 } = false := by decide
theorem test_admits_min_len_11_biased : biased.admitted = true := by decide
theorem test_refuses_min_above_max : Config.admitted { Config.default with tlmMaxLen := 10 } = false := by decide
theorem test_refuses_equal_ids : Config.admitted { Config.default with msgidPwr := 0x01 } = false := by decide
theorem test_refuses_small_buffer : Config.admitted { Config.default with cmdBufMax := 3 } = false := by decide
theorem test_refuses_zero_poly : Config.admitted { Config.default with crc16Poly := 0 } = false := by decide
theorem test_refuses_reserved_bits : Transaction.wellFormed ⟨0x1100, []⟩ = false := by decide
theorem test_refuses_reserved_tag : Transaction.wellFormed ⟨0x4000, []⟩ = false := by decide
theorem test_refuses_data : Transaction.wellFormed ⟨0x2080, []⟩ = false := by decide
theorem test_refuses_operand : Transaction.wellFormed ⟨0x1011, [0x00]⟩ = false := by decide

/-! ### Decode: words from R71 to R75 -/

theorem test_decode_power_on : decode ⟨0b0000000000000000, []⟩ = .ok .powerOn := by decide
theorem test_decode_rx_byte : decode ⟨0b0001000010101010, []⟩ = .ok (.rxByte 0xAA) := by decide
theorem test_decode_boundary : decode ⟨0b0010000000000000, []⟩ = .ok .boundary := by decide
theorem test_decode_send : decode ⟨0b0011000010000001, [0x03, 0x00]⟩ = .ok (.send 0x81 [0x03, 0x00]) := by decide
theorem test_decode_names : (decode ⟨0x1100, []⟩, decode ⟨0x4000, []⟩, decode ⟨0x0001, []⟩, decode ⟨0x2000, [0x00]⟩) =
    (.error .reservedBits, .error .reservedTag, .error .nonzeroData, .error .strayOperand) := by decide
theorem test_fetch_word : nextState (step (State.reset.withFetchWord 16 0x1011)) =
    nextState (exec (.rxByte 0x11) State.reset) := by decide

/-! ### Functions: CK-1, CK-3, CK-9, CK-12, CK-14 and the field functions -/

theorem test_checksum_check_value :
    checksum16 Config.default [0x31, 0x32, 0x33, 0x34, 0x35, 0x36, 0x37, 0x38, 0x39] = 0x4B37 := by decide
theorem test_checksum_frame : checksum16 Config.default [0x01, 0x03, 0x00, 0x00, 0x00, 0x0A] = 0xCDC5 := by decide
theorem test_crc_table : (crc16Byte 0xA001 0 0x01, crc16Byte 0xA001 0 0x80, crc16Byte 0xA001 0 0xFF) =
    (0xC0C1, 0xA001, 0x4040) := by decide
theorem test_xor8 : xor8 [0x0B, 0x02, 0, 0, 0, 0, 0, 0, 0, 0] = 0x09 := by decide
theorem test_fields : le32 [0x00, 0x00, 0x64, 0x00] 0 = 0x00640000 ∧ sint32 (le32 [0x00, 0x00, 0xFF, 0xFF] 0) = -65536 ∧
    popcount 0x00000023 = 3 := by decide

/-! ### One step per test -/

/-- RST-1. -/
theorem test_power_on : nextState (exec .powerOn (st .sof2 [] .active [0x01, 0x03] true)) = some State.reset := by decide

/-- DMX-13: a length byte equal to `SOF[0]` is rejected and not rescanned. -/
theorem test_rx_byte_length_not_rescanned : nextState (exec (.rxByte 0xAA) (st .sof4 [] .idle [] false)) =
    some { st .commandByte [] .active [0xAA, 0x55, 0x5A, 0xA5, 0xAA] false with
      output := .dmxLenReject .large 0xAA :: [0xAA, 0x55, 0x5A, 0xA5, 0xAA].map .cmdByte } := by decide

/-- TLM-1: the source's measurement scenario, at the frame's last byte. -/
theorem test_rx_byte_measurement :
    (nextState (exec (.rxByte 0xAC) (st .telemetryPayload [0x13, 0x01, 0xE8, 0x03, 0x00, 0x00, 0x03, 0x00, 0x00, 0x00,
        0x00, 0x00, 0x64, 0x00, 0x00, 0x00, 0x32, 0x00] .idle [] false))).map (fun t => t.output.drop 1) =
      some [.measReport 1000 0x00000003 [⟨0, 0x00640000⟩, ⟨1, 0x00320000⟩]] := by decide

/-- CMD-11: a checksum byte held as `SOF[0]` is flushed before validation. -/
theorem test_boundary_flush :
    nextState (exec .boundary { st .sof1 [] .active [0x01, 0x03, 0x02, 0x00, 0x68, 0xB9] false with cfg := flush }) =
      some { State.reset with cfg := flush, output := [.cmdByte 0xAA, .cmdFrame 0x01 [0x03, 0x02, 0x00, 0x68]] } := by
  decide

/-- CMD-4. -/
theorem test_boundary_idle : nextState (exec .boundary State.reset) = some State.reset := by decide

/-- CMD-13. -/
theorem test_send_unicast : nextState (exec (.send 0x01 [0x03, 0x00, 0x00, 0x00, 0x0A]) State.reset) =
    some { State.reset with
      output := [0x01, 0x03, 0x00, 0x00, 0x00, 0x0A, 0xC5, 0xCD].map .txByte ++ [.txEnd false] } := by decide

/-- CMD-16: busy is checked before length. -/
theorem test_send_busy_first :
    (nextState (exec (.send 0x01 []) { st .commandByte [] .error [1, 2, 3, 4, 5, 6, 7, 8] false with cfg := small })).map
      State.output = some [.sendReject .busy] := by decide

/-! ### Witnesses: for every obligation with hypotheses, values that meet them -/

theorem witness_DecodedPairIsItsEncoding : decode ⟨0x10AA, []⟩ = .ok (.rxByte 0xAA) := by decide

/-- Each of the three defects of R75 at the edge of its range, and a word with none. -/
theorem witness_EveryOtherHeaderWordRefused :
    (4 ≤ (0x4000 : HalfWord).toNat / 0x1000) ∧ ((0x1100 : HalfWord).toNat / 0x100 % 0x10 ≠ 0) ∧
    ((0x2001 : HalfWord).toNat / 0x1000 = 2 ∧ (0x2001 : HalfWord).toNat % 0x100 ≠ 0) ∧
    ((0x3000 : HalfWord).toNat / 0x1000 = 3) := by decide

theorem witness_EveryOtherHeaderWordRefused_fetched : (present ⟨0x4000, []⟩ State.reset).input = ⟨0x4000, []⟩ :: [] := by
  decide

theorem witness_StrayOperandRefused : (0x2000 : HalfWord).toNat / 0x1000 ≠ 3 ∧ ([0x00] : List Byte) ≠ [] := by decide

theorem witness_StepRunsTheDecodedTransaction :
    (present ⟨0x1011, []⟩ State.reset).input = ⟨0x1011, []⟩ :: [] ∧ decode ⟨0x1011, []⟩ = .ok (.rxByte 0x11) := by decide

theorem witness_StepWaitsWithNothingPresented :
    State.reset.cfg.admitted = true ∧ State.reset.input = [] ∧ nextState (step State.reset) = some State.reset := by decide

theorem witness_UnadmittedConfigurationRefused : Config.admitted { Config.default with cmdBufMax := 3 } = false ∧
    ({ State.reset with cfg := { Config.default with cmdBufMax := 3 } } : State).cfg =
      { Config.default with cmdBufMax := 3 } := by decide

theorem witness_StepKeepsInvariant : BlockInv (present ⟨0x1011, []⟩ State.reset) ∧
    nextState (step (present ⟨0x1011, []⟩ State.reset)) =
      some { st .commandByte [] .active [0x11] false with output := [.cmdByte 0x11] } := by decide

theorem witness_ReachableStatesSatisfyInvariant :
    nextState (Sys2Proof.core.run 1 { State.reset with cfg := small, input := [⟨0x10AA, []⟩] }) =
      some { st .sof1 [] .idle [] false with cfg := small } := by decide

theorem witness_EveryTransactionCompletes : State.reset.cfg.admitted = true ∧
    BlockInv (st .telemetryPayload [0x0B] .active [0x11] true) := by decide

theorem witness_EveryTransactionCompletes_error :
    BlockInv { st .commandByte [] .error [1, 2, 3, 4, 5, 6, 7, 8] false with cfg := small } := by decide

theorem witness_ConfigurationFixedAndEventsOnlyAppended :
    (nextState (exec (.send 0x11 [0x00]) State.reset)).isSome = true := by decide

/-- DMX-1 and DMX-2: both clauses. -/
theorem witness_CommandByteHoldsOrForwards : State.reset.cfg.admitted = true ∧ State.reset.dmxState = .commandByte ∧
    (0xAA : Byte) = State.reset.cfg.sof[0] ∧ (0x11 : Byte) ≠ State.reset.cfg.sof[0] := by decide

/-- CMD-5: the last byte that fits and the first that does not, with `CMD_BUF_MAX = 8`; idle and error. -/
theorem witness_SunkByteEntersReceiveBuffer : small.admitted = true ∧ (0x09 : Byte) ≠ small.sof[0] ∧
    (nextState (exec (.rxByte 0x08) { st .commandByte [] .active [1, 2, 3, 4, 5, 6, 7] false with cfg := small })).map
      (fun t => (t.rxState, t.rxBuf)) = some (.active, [1, 2, 3, 4, 5, 6, 7, 8]) ∧
    (nextState (exec (.rxByte 0x09) { st .commandByte [] .active [1, 2, 3, 4, 5, 6, 7, 8] false with cfg := small })).map
      (fun t => (t.rxState, t.rxBuf)) = some (.error, [1, 2, 3, 4, 5, 6, 7, 8]) ∧
    (nextState (exec (.rxByte 0x0A) { st .commandByte [] .error [1, 2, 3, 4, 5, 6, 7, 8] false with cfg := small })).map
      (fun t => (t.rxState, t.output)) = some (.error, [.cmdByte 0x0A]) ∧
    (nextState (exec (.rxByte 0x01) { State.reset with cfg := small })).map
      (fun t => (t.rxState, t.rxBuf)) = some (.active, [1]) := by decide

/-- R215: five bytes into a buffer with room for three. -/
theorem witness_SunkBytesFillBufferInOrder : small.admitted = true ∧
    ReceiverInv { st .sof4 [] .active [1, 2, 3, 4, 5] false with cfg := small } ∧
    (cmdSinkAll [0xAA, 0x55, 0x5A, 0xA5, 0x05] { st .sof4 [] .active [1, 2, 3, 4, 5] false with cfg := small }).rxBuf =
      [1, 2, 3, 4, 5, 0xAA, 0x55, 0x5A] := by decide

/-- DMX-15: `SOF[1] = SOF[0]` advances; and the last marker byte leads to `SOF_4` (DMX-3). -/
theorem witness_NextMarkerByteAdvances : overlapping.admitted = true ∧ (.sof1 : DmxState) = sofState (Fin.castSucc 0) ∧
    (0xAA : Byte) = overlapping.sof[(0 : Fin 3).val + 1] ∧
    (nextState (exec (.rxByte 0xAA) { st .sof1 [] .idle [] false with cfg := overlapping })).map State.dmxState =
      some .sof2 ∧
    (nextState (exec (.rxByte 0xA5) (st .sof3 [] .idle [] false))).map State.dmxState = some .sof4 := by decide

/-- DMX-8. -/
theorem witness_FirstMarkerByteRestarts : Config.default.admitted = true ∧
    (.sof3 : DmxState) = sofState (Fin.castSucc 2) ∧ (0xAA : Byte) ≠ Config.default.sof[(2 : Fin 3).val + 1] ∧
    (0xAA : Byte) = Config.default.sof[0] ∧
    nextState (exec (.rxByte 0xAA) (st .sof3 [] .idle [] false)) =
      some { st .sof1 [] .active [0xAA, 0x55, 0x5A] false with output := [0xAA, 0x55, 0x5A].map .cmdByte } := by decide

/-- DMX-5. -/
theorem witness_OtherByteBreaksMatch : Config.default.admitted = true ∧
    (.sof2 : DmxState) = sofState (Fin.castSucc 1) ∧ (0x00 : Byte) ≠ Config.default.sof[(1 : Fin 3).val + 1] ∧
    (0x00 : Byte) ≠ Config.default.sof[0] ∧
    nextState (exec (.rxByte 0x00) (st .sof2 [] .idle [] false)) =
      some { st .commandByte [] .active [0xAA, 0x55, 0x00] false with output := [0xAA, 0x55, 0x00].map .cmdByte } := by
  decide

/-- DMX-9 and DMX-12: one below the least and one above the greatest length. -/
theorem witness_LengthOutOfRangeRejected : Config.default.admitted = true ∧
    (0x0A : Byte).toNat < Config.default.tlmMinLen.toNat ∧
    (Config.default.tlmMinLen.toNat ≤ (0x41 : Byte).toNat ∧ Config.default.tlmMaxLen.toNat < (0x41 : Byte).toNat) ∧
    (nextState (exec (.rxByte 0x0A) (st .sof4 [] .idle [] false))).map (fun t => t.output.take 2) =
      some [.dmxLenReject .small 0x0A, .cmdByte 0xAA] := by decide

/-- DMX-10 and DMX-11: the least and the greatest length. -/
theorem witness_LengthInRangeAccepted : Config.default.admitted = true ∧
    (Config.default.tlmMinLen.toNat ≤ (0x0B : Byte).toNat ∧ (0x0B : Byte).toNat ≤ Config.default.tlmMaxLen.toNat) ∧
    (Config.default.tlmMinLen.toNat ≤ (0x40 : Byte).toNat ∧ (0x40 : Byte).toNat ≤ Config.default.tlmMaxLen.toNat) ∧
    nextState (exec (.rxByte 0x0B) (st .sof4 [] .idle [] false)) = some (st .telemetryPayload [0x0B] .idle [] false) := by
  decide

theorem witness_CaptureAppendsByte : Config.default.admitted = true ∧
    ([0x0B] ++ [0x01] : List Byte).length + Config.default.tlmLenBias.toNat ≠
      (byteAt ([0x0B] ++ [0x01]) 0).toNat := by decide

/-- TLM-9 and TLM-13: a capture one byte short of its length, under either reading of the length. -/
theorem witness_CaptureCompletesFrame :
    CaptureInv (st .telemetryPayload [0x0B, 0x02, 0x78, 0x56, 0x34, 0x12, 0, 0, 0, 0] .idle [] false) ∧
    CompletesFrame (st .telemetryPayload [0x0B, 0x02, 0x78, 0x56, 0x34, 0x12, 0, 0, 0, 0] .idle [] false) 0x01
      [0x0B, 0x02, 0x78, 0x56, 0x34, 0x12, 0, 0, 0, 0, 0x01] ∧
    CaptureInv { st .telemetryPayload [0x0B, 0x02, 0, 0, 0, 0] .idle [] false with cfg := biased } ∧
    CompletesFrame { st .telemetryPayload [0x0B, 0x02, 0, 0, 0, 0] .idle [] false with cfg := biased } 0x09
      [0x0B, 0x02, 0, 0, 0, 0, 0x09] := by decide

theorem witness_BodyBelowHeaderRefused : Config.default.admitted = true ∧
    ([0x06, 0, 0, 0, 0] ++ [0x06] : List Byte).length + Config.default.tlmLenBias.toNat =
      (byteAt ([0x06, 0, 0, 0, 0] ++ [0x06]) 0).toNat ∧ ([0x06, 0, 0, 0, 0] ++ [0x06] : List Byte).length < 7 ∧
    nextState (exec (.rxByte 0x06) (st .telemetryPayload [0x06, 0, 0, 0, 0] .idle [] false)) = none := by decide

theorem witness_RxByteFrame :
    (nextState (exec (.rxByte 0x01) (st .telemetryPayload [0x0B] .idle [] false))).isSome = true ∧
    (nextState (exec (.rxByte 0x01) (st .commandByte [] .idle [] false))).isSome = true := by decide

theorem witness_OnlyBytesAndPowerOnEndTheWait : Config.default.sofFlushOnBoundary = false ∧ flush.admitted = true ∧
    (nextState (exec .boundary { st .telemetryPayload [0x0B] .idle [] false with cfg := flush })).map State.tlmBuf =
      some [0x0B] := by decide

/-- A run without POWER_ON, and one across it. -/
theorem witness_NoLossNoDuplication : Instr.powerOn ∉ [Instr.rxByte 0xAA, .rxByte 0x00] ∧
    (runAll [.rxByte 0xAA, .rxByte 0x00] { State.reset with cfg := small }).map accountedBytes = some [0xAA, 0x00] := by
  decide

theorem witness_ForwardedBytesKeepArrivalOrder :
    (runAll [.rxByte 0xAA, .powerOn, .rxByte 0x00] { State.reset with cfg := small }).map (fun t => cmdBytes t.output) =
      some [0x00] := by decide

theorem witness_IdentityLawWithoutMarker : Config.default.admitted = true ∧
    ¬ Config.default.sof.toList <:+: lineBytes [.rxByte 0xAA, .rxByte 0x55] ∧
    Instr.powerOn ∉ [Instr.rxByte 0xAA, .rxByte 0x55] := by decide

/-- TLM-14: a bad fold. -/
theorem witness_BadXorDropsFrame :
    CompletesFrame (st .telemetryPayload [0x0B, 0x02, 0, 0, 0, 0, 0, 0, 0, 0] .idle [] false) 0x00
      [0x0B, 0x02, 0, 0, 0, 0, 0, 0, 0, 0, 0x00] ∧ xor8 [0x0B, 0x02, 0, 0, 0, 0, 0, 0, 0, 0, 0x00] ≠ 0 := by decide

/-- TLM-8: message id 0x7F. -/
theorem witness_UnknownIdDropsFrame :
    CompletesFrame (st .telemetryPayload [0x0B, 0x7F, 0, 0, 0, 0, 0, 0, 0, 0] .idle [] false) 0x74
      [0x0B, 0x7F, 0, 0, 0, 0, 0, 0, 0, 0, 0x74] ∧ xor8 [0x0B, 0x7F, 0, 0, 0, 0, 0, 0, 0, 0, 0x74] = 0 ∧
    byteAt [0x0B, 0x7F, 0, 0, 0, 0, 0, 0, 0, 0, 0x74] 1 ≠ Config.default.msgidMeas ∧
    byteAt [0x0B, 0x7F, 0, 0, 0, 0, 0, 0, 0, 0, 0x74] 1 ≠ Config.default.msgidPwr := by decide

/-- TLM-9 and TLM-10: the first and a repeated notice. -/
theorem witness_PowerNoticeLatches :
    xor8 [0x0B, 0x02, 0x78, 0x56, 0x34, 0x12, 0, 0, 0, 0, 0x01] = 0 ∧
    byteAt [0x0B, 0x02, 0x78, 0x56, 0x34, 0x12, 0, 0, 0, 0, 0x01] 1 = Config.default.msgidPwr ∧
    CompletesFrame (st .telemetryPayload [0x0B, 0x02, 0x78, 0x56, 0x34, 0x12, 0, 0, 0, 0] .idle [] true) 0x01
      [0x0B, 0x02, 0x78, 0x56, 0x34, 0x12, 0, 0, 0, 0, 0x01] ∧
    (nextState (exec (.rxByte 0x01) (st .telemetryPayload [0x0B, 0x02, 0x78, 0x56, 0x34, 0x12, 0, 0, 0, 0] .idle [] false))).map
      (fun t => (t.pwrLatch, t.output.drop 1)) = some (true, [.pwrRecovery]) ∧
    (nextState (exec (.rxByte 0x01) (st .telemetryPayload [0x0B, 0x02, 0x78, 0x56, 0x34, 0x12, 0, 0, 0, 0] .idle [] true))).map
      (fun t => (t.pwrLatch, t.output.drop 1)) = some (true, []) := by decide

/-- TLM-15 (three payload bytes, the bias 4) and a payload one byte short of the one value its mask asks for. -/
theorem witness_ShortMeasurementDropsFrame :
    CompletesFrame { st .telemetryPayload [0x0E, 0x01, 0, 0, 0, 0, 0x01, 0, 0] .idle [] false with cfg := biased } 0x0E
      [0x0E, 0x01, 0, 0, 0, 0, 0x01, 0, 0, 0x0E] ∧
    xor8 [0x0E, 0x01, 0, 0, 0, 0, 0x01, 0, 0, 0x0E] = 0 ∧
    (slice [0x0E, 0x01, 0, 0, 0, 0, 0x01, 0, 0, 0x0E] 6 9).length < 4 ∧
    CompletesFrame (st .telemetryPayload [0x0E, 0x01, 0, 0, 0, 0, 0x01, 0, 0, 0, 0, 0, 0] .idle [] false) 0x0E
      [0x0E, 0x01, 0, 0, 0, 0, 0x01, 0, 0, 0, 0, 0, 0, 0x0E] ∧
    xor8 [0x0E, 0x01, 0, 0, 0, 0, 0x01, 0, 0, 0, 0, 0, 0, 0x0E] = 0 ∧
    (slice [0x0E, 0x01, 0, 0, 0, 0, 0x01, 0, 0, 0, 0, 0, 0, 0x0E] 6 13).length <
      4 + 4 * popcount (le32 (slice [0x0E, 0x01, 0, 0, 0, 0, 0x01, 0, 0, 0, 0, 0, 0, 0x0E] 6 13) 0) ∧
    byteAt [0x0E, 0x01, 0, 0, 0, 0, 0x01, 0, 0, 0, 0, 0, 0, 0x0E] 1 = Config.default.msgidMeas := by decide

/-- TLM-4: bit 31 alone, the exact payload length. -/
theorem witness_MeasurementReported :
    CompletesFrame (st .telemetryPayload [0x0F, 0x01, 0xFF, 0xFF, 0xFF, 0xFF, 0, 0, 0, 0x80, 0, 0, 0xFF, 0xFF] .idle []
      false) 0x8E [0x0F, 0x01, 0xFF, 0xFF, 0xFF, 0xFF, 0, 0, 0, 0x80, 0, 0, 0xFF, 0xFF, 0x8E] ∧
    xor8 [0x0F, 0x01, 0xFF, 0xFF, 0xFF, 0xFF, 0, 0, 0, 0x80, 0, 0, 0xFF, 0xFF, 0x8E] = 0 ∧
    byteAt [0x0F, 0x01, 0xFF, 0xFF, 0xFF, 0xFF, 0, 0, 0, 0x80, 0, 0, 0xFF, 0xFF, 0x8E] 1 = Config.default.msgidMeas ∧
    slice [0x0F, 0x01, 0xFF, 0xFF, 0xFF, 0xFF, 0, 0, 0, 0x80, 0, 0, 0xFF, 0xFF, 0x8E] 6 14 =
      [0, 0, 0, 0x80, 0, 0, 0xFF, 0xFF] ∧ le32 [0, 0, 0, 0x80, 0, 0, 0xFF, 0xFF] 0 = 0x80000000 ∧
    4 + 4 * popcount 0x80000000 ≤ 8 ∧
    (nextState (exec (.rxByte 0x8E) (st .telemetryPayload [0x0F, 0x01, 0xFF, 0xFF, 0xFF, 0xFF, 0, 0, 0, 0x80, 0, 0, 0xFF,
      0xFF] .idle [] false))).map (fun t => t.output.drop 1) =
      some [.measReport 4294967295 0x80000000 [⟨31, -65536⟩]] := by decide

theorem witness_OneResultPerFrame : Config.default.admitted = true ∧
    CompletesFrame (st .telemetryPayload [0x0B, 0x7F, 0, 0, 0, 0, 0, 0, 0, 0] .active [0x11] false) 0x74
      [0x0B, 0x7F, 0, 0, 0, 0, 0, 0, 0, 0, 0x74] := by decide

theorem witness_LatchCountsRecoveries : (Instr.boundary ≠ .powerOn) ∧
    (nextState (exec .boundary (st .commandByte [] .idle [] true))).isSome = true := by decide

theorem witness_OneRecoveryPerPowerCycle : Instr.powerOn ∉ [Instr.boundary, .send 0x01 [0x03]] ∧
    (runAll [.boundary, .send 0x01 [0x03]] (st .commandByte [] .idle [] true)).map State.pwrLatch = some true := by decide

/-- CMD-10, CMD-4, CMD-6: the flush, and the three receiver states. -/
theorem witness_BoundaryEffect : flush.admitted = true ∧ flush.sofFlushOnBoundary = true ∧
    (.sof1 : DmxState) ∈ [DmxState.sof1, .sof2, .sof3, .sof4] ∧
    (cmdSinkAll (held flush .sof1) { st .sof1 [] .active [0x01] false with cfg := flush }).rxState = .active ∧
    (nextState (exec .boundary { st .commandByte [] .error [1, 2, 3, 4, 5, 6, 7, 8] false with cfg := small })).map
      (fun t => (t.rxState, t.rxBuf, t.output)) = some (.idle, [], [.cmdRxError .overflow]) := by decide

/-- CMD-2, CMD-3 and CMD-20's frame: three bytes, four bytes that do not verify, four that do. -/
theorem witness_CandidateFrameValidated : Config.default.admitted = true ∧ Config.default.sofFlushOnBoundary = false ∧
    ([0x01, 0x03, 0x02] : List Byte).length < 4 ∧ checksum16 Config.default [0x11, 0x00, 0x0D, 0xE1] ≠ 0 ∧
    checksum16 Config.default [0x11, 0x00, 0x0D, 0xE0] = 0 ∧
    ([0x11, 0x00, 0x0D, 0xE0] : List Byte) = 0x11 :: [0x00] ++ [0x0D, 0xE0] ∧
    (nextState (exec .boundary (st .commandByte [] .active [0x11, 0x00, 0x0D, 0xE0] false))).map State.output =
      some [.cmdFrame 0x11 [0x00]] ∧
    (nextState (exec .boundary (st .commandByte [] .active [0x01, 0x03, 0x02] false))).map State.output =
      some [.cmdRxError .short] := by decide

theorem witness_BoundaryFrame : (nextState (exec .boundary { st .sof4 [] .idle [] true with cfg := flush })).map
    (fun t => (t.dmxState, t.pwrLatch, cmdBytes t.output)) =
      some (.commandByte, true, [0xAA, 0x55, 0x5A, 0xA5]) := by decide

/-- Both alternatives: the flag false with a byte held, the flag true with none held. -/
theorem witness_BoundaryInIdleChangesNothing : ReceiverInv (st .sof1 [] .idle [] false) ∧
    Config.default.sofFlushOnBoundary = false ∧ held flush .commandByte = [] ∧ flush.admitted = true := by decide

theorem witness_OverflowLastsUntilBoundary :
    (nextState (exec (.rxByte 0xAA) { st .commandByte [] .error [1, 2, 3, 4, 5, 6, 7, 8] false with cfg := small })).isSome
      = true ∧
    (nextState (exec .powerOn { st .commandByte [] .error [1, 2, 3, 4, 5, 6, 7, 8] false with cfg := small })).isSome
      = true := by decide

/-- CMD-15, CMD-17, CMD-18, CMD-19: busy, empty, the longest payload and one more. -/
theorem witness_SendEmitsFrameOrRejects : small.admitted = true ∧
    (nextState (exec (.send 0x01 [0x03]) (st .commandByte [] .active [0x01] false))).map State.output =
      some [.sendReject .busy] ∧
    (nextState (exec (.send 0x01 []) State.reset)).map State.output = some [.sendReject .len] ∧
    (nextState (exec (.send 0x05 [1, 2, 3, 4, 5]) { State.reset with cfg := small })).map State.output =
      some ([0x05, 1, 2, 3, 4, 5, 0x0E, 0xF5].map .txByte ++ [.txEnd false]) ∧
    (nextState (exec (.send 0x05 [1, 2, 3, 4, 5, 6]) { State.reset with cfg := small })).map State.output =
      some [.sendReject .len] := by decide

/-- CMD-20's frame `11 00 0D E0`, received from the launch state: no beginning of it drives the demultiplexer into
`SOF_4`. -/
theorem witness_SentFrameIsReceived : txFrame Config.default 0x11 [0x00] = [0x11, 0x00, 0x0D, 0xE0] ∧
    (∀ q ∈ ([0x11, 0x00, 0x0D, 0xE0] : List Byte).inits, (runAll (q.map .rxByte) State.reset).map State.dmxState = some .commandByte) ∧
    ([0x00] : List Byte).length + 3 ≤ Config.default.cmdBufMax := by decide

theorem witness_SentFrameIsReceived_prefixes (q : List Byte) (v : State) (hq : q <+: txFrame Config.default 0x11 [0x00])
    (hv : runAll (q.map .rxByte) State.reset = some v) : v.dmxState ≠ .sof4 := by
  have h := witness_SentFrameIsReceived
  have hd := h.2.1 q (by rw [← h.1]; exact (List.mem_inits _ _).mpr hq)
  rw [hv] at hd
  simp only [Option.map_some, Option.some.injEq] at hd
  simp [hd]

theorem witness_VerifiesIffTrailerMatches : Config.default.crc16Poly.getLsbD 15 = true ∧
    3 ≤ ([0x11, 0x7F, 0x4C] : List Byte).length ∧ verify16 Config.default [0x11, 0x7F, 0x4C] = true := by decide

/-- The polynomial 0x0001 is admitted, the list verifies, and its trailer is not its checksum: log entry 12. -/
theorem witness_VerifiesIffTrailerMatchesForEveryPolynomial :
    Config.admitted { Config.default with crc16Poly := 0x0001, crc16Init := 0 } = true ∧
    3 ≤ ([0x00, 0x03, 0x00] : List Byte).length ∧
    verify16 { Config.default with crc16Poly := 0x0001, crc16Init := 0 } [0x00, 0x03, 0x00] = true ∧
    checksum16 { Config.default with crc16Poly := 0x0001, crc16Init := 0 } [0x00] ≠ le16 [0x00, 0x03, 0x00] 1 := by
  decide

/-- The first and the last bit of a byte of CMD-20's frame. -/
theorem witness_SingleBitCorruptionDetected : Config.default.crc16Poly ≠ 0 ∧ 7 < 8 ∧
    verify16 Config.default ([0x11] ++ 0x00 :: [0x0D, 0xE0]) = true ∧
    verify16 Config.default ([0x11] ++ (0x00 ^^^ BitVec.twoPow 8 0) :: [0x0D, 0xE0]) = false ∧
    verify16 Config.default ([0x11] ++ (0x00 ^^^ BitVec.twoPow 8 7) :: [0x0D, 0xE0]) = false := by decide

/-- CK-16: the same bit flipped in two bytes is missed, one bit flipped is not. -/
theorem witness_FoldDetectsOddFlips : ([0x13, 0x01] : List Byte).length = ([0x12, 0x00] : List Byte).length ∧
    xor8 [0x13, 0x01] = xor8 [0x12, 0x00] ∧ xor8 [0x13, 0x01] ≠ xor8 [0x13, 0x00] := by decide

theorem witness_TrailerGivesZeroResidue : ([0x11] : List Byte) ≠ [] ∧
    checksum16 Config.default [0x11] = 0x4C7F ∧ checksum16 Config.default [0x11, 0x7F, 0x4C] = 0 := by decide

theorem witness_ChecksumTakesBytesInOrder : ([0x01] : List Byte) ≠ [] ∧
    checksum16 Config.default ([0x01] ++ [0x02]) = 0xE181 := by decide

theorem witness_FoldChecksTrailerInAnyOrder : ([0x01, 0x02] : List Byte).Perm [0x02, 0x01] := by decide

end Sys2Proof.Tests
end

section
/-! The scope rules (00_scope.md): admission of a configuration (R7), the field functions (R10), and one step of the
block (R5). -/

namespace Sys2Proof.Machine

/-! ### Reading bytes as numbers (R9, R10) -/

/-- R9: past a prefix, `byteAt` reads what follows the prefix. -/
theorem byteAt_append_length_add (l r : List Byte) (k : Nat) : byteAt (l ++ r) (l.length + k) = byteAt r k := by
  rw [byteAt, List.getD_append_right _ _ _ _ (Nat.le_add_right _ _), Nat.add_sub_cancel_left, byteAt]

/-- R10: or-ing in a byte above the `k` bits a value occupies adds the byte at weight `2 ^ k`. -/
theorem toNat_or_byte_shiftLeft {w k : Nat} {x : BitVec w} (hx : x.toNat < 2 ^ k) (hk : k + 8 ≤ w) (b : Byte) :
    (x ||| (b.setWidth w <<< k)).toNat = x.toNat + 2 ^ k * b.toNat := by
  have hw : 2 ^ k * 2 ^ 8 ≤ 2 ^ w := by
    rw [← Nat.pow_add]
    exact Nat.pow_le_pow_right (by decide) hk
  have hb : 2 ^ k * b.toNat < 2 ^ w :=
    Nat.lt_of_lt_of_le (Nat.mul_lt_mul_of_pos_left b.isLt (Nat.two_pow_pos k)) hw
  have hbw : b.toNat < 2 ^ w := Nat.lt_of_le_of_lt (Nat.le_mul_of_pos_left _ (Nat.two_pow_pos k)) hb
  rw [BitVec.toNat_or, BitVec.toNat_shiftLeft, BitVec.toNat_setWidth, Nat.mod_eq_of_lt hbw, Nat.shiftLeft_eq,
    Nat.mul_comm b.toNat, Nat.mod_eq_of_lt hb, Nat.or_comm, ← Nat.two_pow_add_eq_or_of_lt hx, Nat.add_comm]

/-- R10: `le16` as a number. -/
theorem le16_toNat (bs : List Byte) (i : Nat) :
    (le16 bs i).toNat = (byteAt bs i).toNat + 2 ^ 8 * (byteAt bs (i + 1)).toNat := by
  have h0 := (byteAt bs i).isLt
  have e0 : ((byteAt bs i).setWidth 16).toNat = (byteAt bs i).toNat := BitVec.toNat_setWidth_of_le (by decide)
  rw [le16, toNat_or_byte_shiftLeft (by omega) (by decide), e0]

/-- R10: `le32` as a number. -/
theorem le32_toNat (bs : List Byte) (i : Nat) :
    (le32 bs i).toNat = (byteAt bs i).toNat + 2 ^ 8 * (byteAt bs (i + 1)).toNat +
      2 ^ 16 * (byteAt bs (i + 2)).toNat + 2 ^ 24 * (byteAt bs (i + 3)).toNat := by
  have h0 := (byteAt bs i).isLt
  have h1 := (byteAt bs (i + 1)).isLt
  have h2 := (byteAt bs (i + 2)).isLt
  have e0 : ((byteAt bs i).setWidth 32).toNat = (byteAt bs i).toNat := BitVec.toNat_setWidth_of_le (by decide)
  have e1 := toNat_or_byte_shiftLeft (x := (byteAt bs i).setWidth 32) (k := 8) (by omega) (by decide)
    (byteAt bs (i + 1))
  have e2 := toNat_or_byte_shiftLeft (k := 16)
    (x := (byteAt bs i).setWidth 32 ||| ((byteAt bs (i + 1)).setWidth 32 <<< 8)) (by omega) (by decide)
    (byteAt bs (i + 2))
  rw [le32, toNat_or_byte_shiftLeft (by omega) (by decide), e2, e1, e0]

/-- Settles O59: at the end of the prefix the fields' bytes are the ones that follow it. -/
theorem fieldsAreLittleEndian : Obligations.FieldsAreLittleEndian := by
  intro l r b0 b1 b2 b3
  have hat (bs : List Byte) : byteAt (l ++ bs) l.length = byteAt bs 0 := byteAt_append_length_add l bs 0
  constructor
  · rw [le16_toNat, hat, byteAt_append_length_add]
    rfl
  · rw [le32_toNat, hat, byteAt_append_length_add, byteAt_append_length_add, byteAt_append_length_add]
    rfl

/-- G1: `sint32` is the two's complement integer of the word. -/
theorem sint32_eq_toInt (u : Word) : sint32 u = u.toInt := by
  rw [sint32, BitVec.toInt_eq_toNat_cond]
  split <;> split <;> omega

/-- R66: a mask sets as many ids as it has 1 bits. -/
theorem setBits_length (u : Word) : (setBits u).length = popcount u := List.countP_eq_length_filter.symm

/-- Settles O60. -/
theorem rawValuesAreTwosComplement : Obligations.RawValuesAreTwosComplement := by
  intro u
  rw [sint32_eq_toInt]
  exact ⟨rfl, BitVec.le_toInt u, BitVec.toInt_lt, setBits_length u⟩

/-! ### Admission (R7) -/

/-- R7: a configuration is admitted exactly when the five tests of the model hold. -/
theorem admitted_iff_clauses (c : Config) :
    c.admitted = true ↔ c.tlmLenBias.toNat + 7 ≤ c.tlmMinLen.toNat ∧ c.tlmMinLen.toNat ≤ c.tlmMaxLen.toNat ∧
      c.msgidMeas ≠ c.msgidPwr ∧ 4 ≤ c.cmdBufMax ∧ c.crc16Poly ≠ 0 := by
  refine ⟨admitted_clauses, fun ⟨hheader, hordered, hids, hbuf, hpoly⟩ => ?_⟩
  simp only [Config.admitted, Config.lenHoldsHeader, Config.lenOrdered, Config.idsDiffer, Config.bufHoldsFrame,
    Config.polyNonzero, Bool.and_eq_true, decide_eq_true_eq]
  exact ⟨⟨⟨⟨hheader, hordered⟩, hids⟩, hbuf⟩, hpoly⟩

/-- R7, R223: under a configuration that is not admitted every transaction is refused. -/
theorem exec_of_not_admitted {s : State} (h : s.cfg.admitted = false) (i : Instr) :
    exec i s = .refused .configNotAdmitted := by
  cases i with
  | powerOn => exact whenAdmitted_of_not_admitted h _
  | rxByte b => exact whenAdmitted_of_not_admitted h _
  | boundary => exact whenAdmitted_of_not_admitted h _
  | send a p => exact whenAdmitted_of_not_admitted h _

/-- R7: a step that answers a next state, a waiting one included, runs under an admitted configuration. -/
theorem admitted_of_step_eq_next {s t : State} (h : step s = .next t) : s.cfg.admitted = true := by
  rcases step_cases h with ⟨_, hadm, _⟩ | ⟨_, rest, i, _, _, hexec⟩
  · exact hadm
  · by_contra hadm
    rw [exec_of_not_admitted (s := setInput rest s) (by simpa using hadm)] at hexec
    cases hexec

/-- Settles O9: R7's subtraction over the integers is the model's addition, and `TLM_MAX_LEN ≤ 255` holds of any byte. -/
theorem unadmittedConfigurationRefused : Obligations.UnadmittedConfigurationRefused := by
  intro c
  have hmax : c.tlmMaxLen.toNat < 2 ^ 8 := c.tlmMaxLen.isLt
  constructor
  · rw [admitted_iff_clauses]
    constructor
    · rintro ⟨hheader, hordered, hids, hbuf, hpoly⟩
      exact ⟨by omega, hordered, by omega, hids, hbuf, hpoly⟩
    · rintro ⟨hheader, hordered, _, hids, hbuf, hpoly⟩
      exact ⟨by omega, hordered, hids, hbuf, hpoly⟩
  · rintro hadm s rfl
    exact ⟨exec_of_not_admitted hadm, fun t ht => by simp [admitted_of_step_eq_next ht] at hadm⟩

/-! ### One step (R5) -/

/-- Settles O7: the fetch answers the oldest presented transaction and the state that has consumed it. -/
theorem stepRunsTheDecodedTransaction : Obligations.StepRunsTheDecodedTransaction := by
  intro s t rest i hinput hdecode
  simp only [step, fetch_of_cons hinput, hdecode]
  rfl

end Sys2Proof.Machine
end

section
/-! The state rules (10_state.md): the launch state (R30), the invariants of R29 over one step and over every run, what no
transaction writes (R20, R31), and how long RX_ERROR lasts (R25, R26, R28). -/

namespace Sys2Proof.Machine

/-! ### What each transaction can do -/

/-- R240: a POWER_ON that answers leaves the reset values. -/
theorem powerOn_next {s t : State} (h : exec .powerOn s = .next t) : t = powerOnState s := by
  obtain ⟨_, hnext⟩ := whenAdmitted_eq_next.mp h
  exact (Host.Outcome.next.inj hnext).symm

/-- R120: an RX_BYTE that answers is the demultiplexer's case over `dmx_state`, under an admitted configuration. -/
theorem rxByte_next {b : Byte} {s t : State} (h : exec (.rxByte b) s = .next t) :
    s.cfg.admitted = true ∧ dmxByte b s = .next t := whenAdmitted_eq_next.mp h

/-- R152: the flush leaves the state, or routes the held marker bytes to the command sink. -/
theorem boundaryFlush_cases (s : State) :
    boundaryFlush s = s ∨
    (s.dmxState ≠ .telemetryPayload ∧
      boundaryFlush s = setDmxState .commandByte (cmdSinkAll (held s.cfg s.dmxState) s)) := by
  unfold boundaryFlush
  split
  · next hflush =>
    refine .inr ⟨fun hd => ?_, rfl⟩
    simp [hd, holdsMarker] at hflush
  · exact .inl rfl

/-- R152: the report emits, and writes nothing. -/
theorem boundaryReport_emits (s : State) : ∃ es, boundaryReport s = { s with output := s.output ++ es } := by
  rcases boundaryReport_cases s with ⟨_, h⟩ | ⟨_, h⟩ | ⟨_, h⟩
  · exact ⟨[], by simp [h]⟩
  · rcases cmdValidate_cases s.rxBuf s with ⟨_, hv⟩ | ⟨_, _, hv⟩ | ⟨_, _, hv⟩ <;> exact ⟨_, h.trans hv⟩
  · exact ⟨_, h⟩

/-- R152: after the flush, a BOUNDARY that answers only emits and returns the receiver to idle. -/
theorem boundary_next {s t : State} (h : exec .boundary s = .next t) :
    ∃ es, t = receiverToIdle { boundaryFlush s with output := (boundaryFlush s).output ++ es } := by
  obtain ⟨_, hnext⟩ := whenAdmitted_eq_next.mp h
  obtain ⟨es, hreport⟩ := boundaryReport_emits (boundaryFlush s)
  exact ⟨es, by rw [← Host.Outcome.next.inj hnext, hreport]⟩

/-- R155: building a frame emits, and writes nothing. -/
theorem cmdBuild_emits (a : Byte) (p : List Byte) (s : State) :
    ∃ es, cmdBuild a p s = { s with output := s.output ++ es } := by
  rw [cmdBuild, cmdClassify, txBytes_eq]
  exact ⟨_, by rw [emit, List.append_assoc]⟩

/-- R154: a SEND that answers emits, and writes nothing. -/
theorem send_next {a : Byte} {p : List Byte} {s t : State} (h : exec (.send a p) s = .next t) :
    ∃ es, t = { s with output := s.output ++ es } := by
  obtain ⟨_, hnext⟩ := whenAdmitted_eq_next.mp h
  rw [← Host.Outcome.next.inj hnext]
  split
  · exact ⟨_, rfl⟩
  · split
    · exact ⟨_, rfl⟩
    · exact cmdBuild_emits a p s

/-- R180: the decoder extends the output. -/
theorem tlmDecode_output_extends (body : List Byte) (s : State) :
    ∃ es, (tlmDecode body s).output = s.output ++ es := by
  rcases tlmDecode_cases body s with ⟨e, _, _, h⟩ | ⟨_, h⟩ | ⟨_, h⟩
  · exact ⟨[e], by rw [h, emit_output]⟩
  · exact ⟨[.pwrRecovery], by rw [h, emit_output, setPwrLatch_output]⟩
  · exact ⟨[], by rw [h, List.append_nil]⟩

/-! ### The command receiver under RX_BYTE

Here and below a proof by `dmxByte_cases` takes its seven cases in that lemma's order: the byte is held, the match
restarts, the match fails, the length is rejected, a capture starts, goes on, completes. -/

/-- The two states agree on what the command receiver reads and writes. -/
structure SameReceiver (s t : State) : Prop where
  cfg : t.cfg = s.cfg
  rxState : t.rxState = s.rxState
  rxBuf : t.rxBuf = s.rxBuf

theorem SameReceiver.refl (s : State) : SameReceiver s s := ⟨rfl, rfl, rfl⟩

/-- R29 (2), (3) speak of the receiver alone. -/
theorem SameReceiver.receiverInv {s t : State} (h : SameReceiver s t) (hinv : ReceiverInv s) : ReceiverInv t := by
  unfold ReceiverInv
  rw [h.cfg, h.rxState, h.rxBuf]
  exact hinv

/-- R120: to the command receiver an RX_BYTE is some list of bytes routed to the command sink. -/
theorem rxByte_receiver {b : Byte} {s t : State} (h : dmxByte b s = .next t) :
    ∃ u bs, SameReceiver s u ∧ SameReceiver (cmdSinkAll bs u) t := by
  rcases dmxByte_cases h with ⟨_, _, d, _, _, rfl⟩ | ⟨_, _, _, rfl⟩ | ⟨_, _, _, rfl⟩ | ⟨_, c, _, rfl⟩ | ⟨_, _, _, rfl⟩ |
    ⟨_, _, rfl⟩ | ⟨_, rfl⟩
  · exact ⟨s, [], .refl s, ⟨rfl, rfl, rfl⟩⟩
  · exact ⟨s, _, .refl s, ⟨rfl, rfl, rfl⟩⟩
  · exact ⟨s, _, .refl s, ⟨rfl, rfl, rfl⟩⟩
  · exact ⟨emit (.dmxLenReject c b) s, _, ⟨rfl, rfl, rfl⟩, ⟨rfl, rfl, rfl⟩⟩
  · exact ⟨s, [], .refl s, ⟨rfl, rfl, rfl⟩⟩
  · exact ⟨s, [], .refl s, ⟨rfl, rfl, rfl⟩⟩
  · exact ⟨s, [], .refl s, ⟨by simp, by simp, by simp⟩⟩

/-- R150: in RX_ERROR routed bytes leave the receiver as it is. -/
theorem cmdSinkAll_of_error (bs : List Byte) {s : State} (hs : s.rxState = .error) :
    SameReceiver s (cmdSinkAll bs s) := by
  refine forBytes_inv (SameReceiver s) cmdSink (fun b u hu => ?_) bs (.refl s)
  have hsink : cmdSink b u = emit (.cmdByte b) u := by
    rw [cmdSink, rxAppend, emit_rxState, hu.rxState, hs]
  rw [hsink]
  exact ⟨hu.cfg, hu.rxState, hu.rxBuf⟩

/-! ### The invariants of R29 -/

/-- R29 (1): outside a capture the capture buffer is empty, and that is all. -/
theorem captureInv_of_not_capturing {s : State} (hd : s.dmxState ≠ .telemetryPayload) (hbuf : s.tlmBuf = []) :
    CaptureInv s := ⟨fun _ => hbuf, fun h => absurd h hd⟩

/-- R29 (2), (3) of an idle receiver with an empty buffer. -/
theorem receiverInv_of_idle {s : State} (hs : s.rxState = .idle) (hbuf : s.rxBuf = []) : ReceiverInv s := by
  simp [ReceiverInv, hs, hbuf]

/-- R29 through the five reset values, whatever the other fields. -/
theorem powerOnState_blockInv (s : State) : BlockInv (powerOnState s) :=
  ⟨captureInv_of_not_capturing (by simp [powerOnState]) rfl, receiverInv_of_idle rfl rfl⟩

/-- R9: the first byte of a non-empty list stays first. -/
theorem byteAt_zero_append {bs : List Byte} (h : 1 ≤ bs.length) (cs : List Byte) :
    byteAt (bs ++ cs) 0 = byteAt bs 0 := List.getD_append bs cs 0 0 h

/-- R29 (4) when a capture starts: an accepted length leaves at least six bytes to come, by R7. -/
theorem captureInv_start {b : Byte} {s : State} (hadm : s.cfg.admitted = true)
    (hmin : s.cfg.tlmMinLen.toNat ≤ b.toNat) (hmax : b.toNat ≤ s.cfg.tlmMaxLen.toNat) :
    CaptureInv (setDmxState .telemetryPayload (setTlmBuf [b] s)) := by
  obtain ⟨hheader, _⟩ := admitted_clauses hadm
  have hlen : 1 + s.cfg.tlmLenBias.toNat < b.toNat := by omega
  exact ⟨fun h => absurd rfl h, fun _ => ⟨hmin, hmax, Nat.le_refl 1, hlen⟩⟩

/-- R29 (4) when a capture goes on: the length byte stays first, and a byte that does not complete the frame leaves it
short of its length. -/
theorem captureInv_extend {b : Byte} {s : State} (hd : s.dmxState = .telemetryPayload) (hinv : CaptureInv s)
    (hmore : (s.tlmBuf ++ [b]).length + s.cfg.tlmLenBias.toNat ≠ (byteAt (s.tlmBuf ++ [b]) 0).toNat) :
    CaptureInv (setTlmBuf (s.tlmBuf ++ [b]) s) := by
  obtain ⟨hmin, hmax, hpos, hlt⟩ := hinv.2 hd
  have hfirst := byteAt_zero_append hpos [b]
  rw [hfirst, List.length_append, List.length_singleton] at hmore
  refine ⟨fun h => absurd hd h, fun _ => ?_⟩
  simp only [setTlmBuf_tlmBuf, setTlmBuf_cfg, hfirst, List.length_append, List.length_singleton]
  omega

/-- R29 (1), (4) through RX_BYTE. -/
theorem rxByte_captureInv {b : Byte} {s t : State} (hadm : s.cfg.admitted = true) (hinv : CaptureInv s)
    (h : dmxByte b s = .next t) : CaptureInv t := by
  rcases dmxByte_cases h with ⟨hd, _, d, hd', _, rfl⟩ | ⟨hd, _, _, rfl⟩ | ⟨hd, _, _, rfl⟩ | ⟨hd, c, _, rfl⟩ |
    ⟨_, hmin, hmax, rfl⟩ | ⟨hd, hmore, rfl⟩ | ⟨_, rfl⟩
  · exact captureInv_of_not_capturing hd' (hinv.1 hd)
  · exact captureInv_of_not_capturing (by simp) (by simpa using hinv.1 hd)
  · exact captureInv_of_not_capturing (by simp) (by simpa using hinv.1 hd)
  · exact captureInv_of_not_capturing (by simp) (by simpa using hinv.1 (by simp [hd]))
  · exact captureInv_start hadm hmin hmax
  · exact captureInv_extend hd hinv hmore
  · exact captureInv_of_not_capturing (by simp) (by simp)

/-- R29 through RX_BYTE. -/
theorem rxByte_blockInv {b : Byte} {s t : State} (hinv : BlockInv s) (h : exec (.rxByte b) s = .next t) :
    BlockInv t := by
  obtain ⟨hcapture, hreceiver⟩ := hinv
  obtain ⟨hadm, hbyte⟩ := rxByte_next h
  obtain ⟨_, _, _, hbuf, _⟩ := admitted_clauses hadm
  obtain ⟨u, bs, hsu, hut⟩ := rxByte_receiver hbyte
  have hroom : 1 ≤ u.cfg.cmdBufMax := by rw [hsu.cfg]; omega
  exact ⟨rxByte_captureInv hadm hcapture hbyte,
    hut.receiverInv (cmdSinkAll_receiverInv bs hroom (hsu.receiverInv hreceiver))⟩

/-- R29 (1), (4) through the flush. -/
theorem boundaryFlush_captureInv {s : State} (hinv : CaptureInv s) : CaptureInv (boundaryFlush s) := by
  rcases boundaryFlush_cases s with h | ⟨hd, h⟩
  · rwa [h]
  · rw [h]
    exact captureInv_of_not_capturing (by simp) (by simpa using hinv.1 hd)

/-- R29 through every transaction. -/
theorem exec_blockInv {i : Instr} {s t : State} (hinv : BlockInv s) (h : exec i s = .next t) : BlockInv t := by
  cases i with
  | powerOn =>
    rw [powerOn_next h]
    exact powerOnState_blockInv s
  | rxByte b => exact rxByte_blockInv hinv h
  | boundary =>
    obtain ⟨es, rfl⟩ := boundary_next h
    exact ⟨boundaryFlush_captureInv hinv.1, receiverInv_of_idle rfl rfl⟩
  | send a p =>
    obtain ⟨es, rfl⟩ := send_next h
    exact hinv

/-- Settles O12: a waiting step leaves the state, and consuming the input touches no field R29 speaks of. -/
theorem stepKeepsInvariant : Obligations.StepKeepsInvariant := by
  intro s t hinv h
  rcases step_cases h with ⟨_, _, rfl⟩ | ⟨_, rest, i, _, _, hexec⟩
  · exact hinv
  · exact exec_blockInv (s := setInput rest s) hinv hexec

/-! ### The launch state and the runs from it -/

/-- Settles O10. -/
theorem launchStateIsResetState : Obligations.LaunchStateIsResetState := ⟨rfl, rfl, rfl, rfl, rfl⟩

/-- Settles O11: R30's values are those of POWER_ON (R241), for which `powerOnState_blockInv` holds. -/
theorem launchStateSatisfiesInvariant : Obligations.LaunchStateSatisfiesInvariant := fun c ts =>
  powerOnState_blockInv { State.reset with cfg := c, input := ts }

/-- A run of `n + 1` steps that answers is a step that answers and then a run of `n`. -/
theorem run_succ_next {M : Host.Core} {n : Nat} {s t : M.State} (h : M.run (n + 1) s = .next t) :
    ∃ u, M.step s = .next u ∧ M.run n u = .next t := by
  unfold Host.Core.run at h
  split at h
  · next u hu => exact ⟨u, hu, h⟩
  · cases h
  · cases h

/-- What every step keeps, every run keeps. -/
theorem run_keeps {M : Host.Core} {P : M.State → Prop} (hstep : ∀ s t, P s → M.step s = .next t → P t) (n : Nat)
    {s t : M.State} (hs : P s) (h : M.run n s = .next t) : P t := by
  induction n generalizing s with
  | zero => exact Host.Outcome.next.inj h ▸ hs
  | succ n ih =>
    obtain ⟨u, hu, hrun⟩ := run_succ_next h
    exact ih (hstep s u hs hu) hrun

/-- Settles O13: R29 holds at launch and every step keeps it. -/
theorem reachableStatesSatisfyInvariant : Obligations.ReachableStatesSatisfyInvariant := fun c ts n _ h =>
  run_keeps (M := core) (P := BlockInv) stepKeepsInvariant n (launchStateSatisfiesInvariant c ts) h

/-! ### What no transaction writes (R20, R31) -/

/-- R31, R11: the configuration and the presented transactions stay, and the output is extended. -/
structure ExtendsOutput (s t : State) : Prop where
  cfg : t.cfg = s.cfg
  input : t.input = s.input
  output : ∃ es, t.output = s.output ++ es

theorem rxByte_extendsOutput {b : Byte} {s t : State} (h : dmxByte b s = .next t) : ExtendsOutput s t := by
  rcases dmxByte_cases h with ⟨_, _, d, _, _, rfl⟩ | ⟨_, _, _, rfl⟩ | ⟨_, _, _, rfl⟩ | ⟨_, c, _, rfl⟩ | ⟨_, _, _, rfl⟩ |
    ⟨_, _, rfl⟩ | ⟨_, rfl⟩
  · exact ⟨rfl, rfl, [], by simp⟩
  · exact ⟨by simp, by simp, (held s.cfg s.dmxState).map .cmdByte, by simp⟩
  · exact ⟨by simp, by simp, (held s.cfg s.dmxState ++ [b]).map .cmdByte, by simp⟩
  · exact ⟨by simp, by simp, .dmxLenReject c b :: (held s.cfg .sof4 ++ [b]).map .cmdByte, by simp⟩
  · exact ⟨rfl, rfl, [], by simp⟩
  · exact ⟨rfl, rfl, [], by simp⟩
  · obtain ⟨es, hes⟩ := tlmDecode_output_extends (s.tlmBuf ++ [b])
      (emit (.tlmFrame (s.tlmBuf ++ [b])) (setDmxState .commandByte (setTlmBuf [] s)))
    exact ⟨by simp, by simp, .tlmFrame (s.tlmBuf ++ [b]) :: es, by simp [hes]⟩

theorem boundaryFlush_extendsOutput (s : State) : ExtendsOutput s (boundaryFlush s) := by
  rcases boundaryFlush_cases s with h | ⟨_, h⟩
  · exact ⟨by rw [h], by rw [h], [], by simp [h]⟩
  · exact ⟨by simp [h], by simp [h], (held s.cfg s.dmxState).map .cmdByte, by simp [h]⟩

/-- Settles O15. -/
theorem configurationFixedAndEventsOnlyAppended : Obligations.ConfigurationFixedAndEventsOnlyAppended := by
  intro i s t h
  cases i with
  | powerOn =>
    rw [powerOn_next h]
    exact ⟨rfl, rfl, [], by simp [powerOnState]⟩
  | rxByte b =>
    obtain ⟨hcfg, hinput, houtput⟩ := rxByte_extendsOutput (rxByte_next h).2
    exact ⟨hcfg, hinput, houtput⟩
  | boundary =>
    obtain ⟨es, rfl⟩ := boundary_next h
    obtain ⟨hcfg, hinput, fs, houtput⟩ := boundaryFlush_extendsOutput s
    exact ⟨hcfg, hinput, fs ++ es, by simp [receiverToIdle, houtput]⟩
  | send a p =>
    obtain ⟨es, rfl⟩ := send_next h
    exact ⟨rfl, rfl, es, rfl⟩

/-! ### How long RX_ERROR lasts (R25, R26, R28) -/

/-- R150: an RX_BYTE in RX_ERROR leaves the receiver as it is. -/
theorem rxByte_of_error {b : Byte} {s t : State} (hs : s.rxState = .error) (h : dmxByte b s = .next t) :
    t.rxState = .error ∧ t.rxBuf = s.rxBuf := by
  obtain ⟨u, bs, hsu, hut⟩ := rxByte_receiver h
  have hsink := cmdSinkAll_of_error bs (hsu.rxState.trans hs)
  exact ⟨by rw [hut.rxState, hsink.rxState, hsu.rxState, hs], by rw [hut.rxBuf, hsink.rxBuf, hsu.rxBuf]⟩

/-- Settles O46. -/
theorem overflowLastsUntilBoundary : Obligations.OverflowLastsUntilBoundary := by
  intro i s t hs h
  cases i with
  | powerOn =>
    rw [powerOn_next h]
    exact .inl ⟨.inl rfl, rfl, rfl⟩
  | rxByte b => exact .inr ⟨nofun, nofun, rxByte_of_error hs (rxByte_next h).2⟩
  | boundary =>
    obtain ⟨es, rfl⟩ := boundary_next h
    exact .inl ⟨.inr rfl, rfl, rfl⟩
  | send a p =>
    obtain ⟨es, rfl⟩ := send_next h
    exact .inr ⟨nofun, nofun, hs, rfl⟩

end Sys2Proof.Machine
end

section
/-! The memory rules (20_memory.md): BOUNDARY at an idle receiver (R46), and the arrival order of the forwarded bytes
(R47). -/

namespace Sys2Proof.Machine

/-! ### BOUNDARY at an idle receiver (R46) -/

/-- R152: a BOUNDARY under an admitted configuration is the flush, the report and the return to idle. -/
theorem exec_boundary_of_admitted {s : State} (h : s.cfg.admitted = true) :
    exec .boundary s = .next (receiverToIdle (boundaryReport (boundaryFlush s))) := whenAdmitted_of_admitted h _

@[simp] theorem receiverToIdle_dmxState (s : State) : (receiverToIdle s).dmxState = s.dmxState := rfl
@[simp] theorem receiverToIdle_cfg (s : State) : (receiverToIdle s).cfg = s.cfg := rfl
@[simp] theorem receiverToIdle_output (s : State) : (receiverToIdle s).output = s.output := rfl

/-- R152: an idle receiver with an empty buffer is already where BOUNDARY leaves it. -/
theorem receiverToIdle_of_idle {s : State} (hs : s.rxState = .idle) (hbuf : s.rxBuf = []) : receiverToIdle s = s :=
  State.eq_of_fields rfl rfl hs.symm hbuf.symm rfl rfl rfl rfl

/-- R22, R23: the states that hold no marker byte are those outside `SOF_1` to `SOF_4`. -/
theorem held_eq_nil_iff (c : Config) (d : DmxState) : held c d = [] ↔ holdsMarker d = false := by
  cases d <;> simp [held, heldCount, sof_toList, holdsMarker]

/-- R152: with the flag false or no byte held the flush does nothing. -/
theorem boundaryFlush_of_nothing_to_flush {s : State}
    (h : s.cfg.sofFlushOnBoundary = false ∨ held s.cfg s.dmxState = []) : boundaryFlush s = s := by
  rw [held_eq_nil_iff] at h
  rcases h with hflag | hnone
  · simp [boundaryFlush, hflag]
  · simp [boundaryFlush, hnone]

/-- R152: an idle receiver has nothing to report. -/
theorem boundaryReport_of_idle {s : State} (hs : s.rxState = .idle) : boundaryReport s = s := by
  rw [boundaryReport, hs]

/-- Settles O45: the flush, the report and the return to idle each leave the state; R29 (2) gives the empty buffer. -/
theorem boundaryInIdleChangesNothing : Obligations.BoundaryInIdleChangesNothing := by
  intro s hadm ⟨hidle, _⟩ hs hflush
  rw [exec_boundary_of_admitted hadm, boundaryFlush_of_nothing_to_flush hflush, boundaryReport_of_idle hs,
    receiverToIdle_of_idle hs (hidle.mp hs)]

/-! ### What forwards no byte (R76, R47) -/

/-- R193: no result of the decoder is a `CMD_BYTE`. -/
theorem cmdBytes_of_decoderResult {e : Event} (h : isDecoderResult e = true) : cmdBytes [e] = [] := by
  cases e with
  | cmdByte b => exact absurd h (by simp [isDecoderResult])
  | _ => rfl

/-- R180: the decoder forwards no byte. -/
@[simp] theorem tlmDecode_cmdBytes (body : List Byte) (s : State) :
    cmdBytes (tlmDecode body s).output = cmdBytes s.output := by
  rcases tlmDecode_cases body s with ⟨e, he, _, h⟩ | ⟨_, h⟩ | ⟨_, h⟩
  · rw [h, emit_output, cmdBytes_append, cmdBytes_of_decoderResult he, List.append_nil]
  · simp [h, cmdBytes_append, cmdBytes]
  · rw [h]

/-- R153: the validator forwards no byte. -/
@[simp] theorem cmdValidate_cmdBytes (frame : List Byte) (s : State) :
    cmdBytes (cmdValidate frame s).output = cmdBytes s.output := by
  rcases cmdValidate_cases frame s with ⟨_, h⟩ | ⟨_, _, h⟩ | ⟨_, _, h⟩ <;> simp [h, cmdBytes_append, cmdBytes]

/-- R152: the report forwards no byte. -/
@[simp] theorem boundaryReport_cmdBytes (s : State) : cmdBytes (boundaryReport s).output = cmdBytes s.output := by
  rcases boundaryReport_cases s with ⟨_, h⟩ | ⟨_, h⟩ | ⟨_, h⟩
  · rw [h]
  · rw [h, cmdValidate_cmdBytes]
  · simp [h, cmdBytes_append, cmdBytes]

/-- R155: building a frame forwards no byte. -/
@[simp] theorem cmdBuild_cmdBytes (a : Byte) (p : List Byte) (s : State) :
    cmdBytes (cmdBuild a p s).output = cmdBytes s.output := by
  simp [cmdBuild, cmdClassify, txBytes_eq, cmdBytes_append, cmdBytes]

/-- R154: a SEND forwards no byte. -/
theorem send_cmdBytes {a : Byte} {p : List Byte} {s t : State} (h : exec (.send a p) s = .next t) :
    cmdBytes t.output = cmdBytes s.output := by
  obtain ⟨_, hnext⟩ := whenAdmitted_eq_next.mp h
  rw [← Host.Outcome.next.inj hnext]
  split
  · simp [cmdBytes_append, cmdBytes]
  · split
    · simp [cmdBytes_append, cmdBytes]
    · exact cmdBuild_cmdBytes a p s

/-! ### The arrival order of the forwarded bytes (R47)

The forwarded bytes alone are no invariant of a run, since a held byte may be forwarded steps after it arrived. With the
held bytes after them they are one: a step only appends the byte it takes, or drops bytes. -/

/-- R47: the line bytes forwarded so far and then the marker bytes still held (R23). -/
def forwardedOrHeld (s : State) : List Byte := cmdBytes s.output ++ held s.cfg s.dmxState

/-- R120: RX_BYTE appends its byte to the bytes forwarded or held, or drops the marker bytes of an accepted frame and
the byte with them. -/
theorem rxByte_forwardedOrHeld {b : Byte} {s t : State} (h : dmxByte b s = .next t) :
    (forwardedOrHeld t).Sublist (forwardedOrHeld s ++ [b]) := by
  rcases dmxByte_cases h with ⟨_, _, d, _, hheld, rfl⟩ | ⟨_, _, hb, rfl⟩ | ⟨_, _, _, rfl⟩ | ⟨hd, c, _, rfl⟩ |
    ⟨_, _, _, rfl⟩ | ⟨hd, _, rfl⟩ | ⟨_, rfl⟩
  · simp [forwardedOrHeld, ← hheld]
  · simp [forwardedOrHeld, cmdBytes_append, held_sof1, hb]
  · simp [forwardedOrHeld, cmdBytes_append, cmdBytes]
  · simp [forwardedOrHeld, cmdBytes_append, cmdBytes, hd]
  · simp [forwardedOrHeld]
  · simp [forwardedOrHeld, hd]
  · simp [forwardedOrHeld, cmdBytes_append, cmdBytes]

/-- R152: the flush moves the held bytes to the forwarded ones, in order. -/
theorem boundaryFlush_forwardedOrHeld (s : State) : forwardedOrHeld (boundaryFlush s) = forwardedOrHeld s := by
  rcases boundaryFlush_cases s with h | ⟨_, h⟩
  · rw [h]
  · simp [h, forwardedOrHeld, cmdBytes_append]

/-- R152: BOUNDARY keeps the bytes forwarded or held. -/
theorem boundary_forwardedOrHeld {s t : State} (h : exec .boundary s = .next t) :
    forwardedOrHeld t = forwardedOrHeld s := by
  obtain ⟨_, hnext⟩ := whenAdmitted_eq_next.mp h
  obtain ⟨es, hreport⟩ := boundaryReport_emits (boundaryFlush s)
  have hcmd := boundaryReport_cmdBytes (boundaryFlush s)
  rw [← Host.Outcome.next.inj hnext, ← boundaryFlush_forwardedOrHeld s]
  simp only [forwardedOrHeld, receiverToIdle_output, receiverToIdle_cfg, receiverToIdle_dmxState, hcmd]
  rw [hreport]

/-- R47 over one transaction: the bytes forwarded or held after it come, in order, from those before it and the line
byte it takes. -/
theorem exec_forwardedOrHeld {i : Instr} {s t : State} (h : exec i s = .next t) :
    (forwardedOrHeld t).Sublist (forwardedOrHeld s ++ lineBytes [i]) := by
  cases i with
  | powerOn =>
    rw [powerOn_next h]
    simp [forwardedOrHeld, powerOnState, lineBytes]
  | rxByte b => exact rxByte_forwardedOrHeld (rxByte_next h).2
  | boundary => simp [boundary_forwardedOrHeld h, lineBytes]
  | send a p =>
    have hcmd := send_cmdBytes h
    obtain ⟨es, rfl⟩ := send_next h
    simp [forwardedOrHeld, hcmd, lineBytes]

/-- A run that answers is a transaction that answers and then the run of the rest. -/
theorem runAll_cons_eq_some {i : Instr} {is : List Instr} {s t : State} (h : runAll (i :: is) s = some t) :
    ∃ u, exec i s = .next u ∧ runAll is u = some t := by
  unfold runAll at h
  split at h
  · next u hu => exact ⟨u, hu, h⟩
  · cases h
  · cases h

/-- R47 over a run from any state, POWER_ON included. -/
theorem runAll_forwardedOrHeld {is : List Instr} {s t : State} (h : runAll is s = some t) :
    (forwardedOrHeld t).Sublist (forwardedOrHeld s ++ lineBytes is) := by
  induction is generalizing s with
  | nil => simp [Option.some.inj h]
  | cons i is ih =>
    obtain ⟨u, hexec, hrun⟩ := runAll_cons_eq_some h
    have hstep := (exec_forwardedOrHeld hexec).append_right (lineBytes is)
    rw [List.append_assoc, ← lineBytes_append] at hstep
    exact (ih hrun).trans hstep

/-- Settles O31: at launch no byte is forwarded or held, so those at the end come from the run's line bytes. -/
theorem forwardedBytesKeepArrivalOrder : Obligations.ForwardedBytesKeepArrivalOrder := fun _ _ _ h =>
  (List.sublist_append_left _ _).trans (runAll_forwardedOrHeld h)

end Sys2Proof.Machine
end

section
/-! The encoding rules (30_encoding.md): the transactions and their words (R70 to R75), the fold of a telemetry body
(R65, R107), and the values of a measurement (R66, R185, R187, R189). -/

namespace Sys2Proof

/-! ### The fields of a header word (R70) -/

theorem headerTag_toNat (w : HalfWord) : (headerTag w).toNat = w.toNat / 0x1000 := by
  have hw := w.isLt
  simp only [headerTag, BitVec.extractLsb'_toNat, Nat.shiftRight_eq_div_pow]
  omega

theorem headerReserved_eq_zero_iff (w : HalfWord) : headerReserved w = 0 ↔ w.toNat / 0x100 % 0x10 = 0 := by
  have hres : (headerReserved w).toNat = w.toNat / 0x100 % 0x10 := by
    simp only [headerReserved, BitVec.extractLsb'_toNat, Nat.shiftRight_eq_div_pow]
  rw [← hres]
  exact BitVec.toNat_eq

theorem headerData_toNat (w : HalfWord) : (headerData w).toNat = w.toNat % 0x100 := by
  simp only [headerData, BitVec.extractLsb'_toNat, Nat.shiftRight_zero]

@[simp] theorem headerTag_headerOf (tag : BitVec 4) (data : Byte) : headerTag (headerOf tag data) = tag := by
  apply BitVec.eq_of_toNat_eq
  rw [headerTag_toNat, Laws.Spelled.headerOf_toNat]
  omega

@[simp] theorem headerReserved_headerOf (tag : BitVec 4) (data : Byte) : headerReserved (headerOf tag data) = 0 := by
  rw [headerReserved_eq_zero_iff, Laws.Spelled.headerOf_toNat]
  omega

@[simp] theorem headerData_headerOf (tag : BitVec 4) (data : Byte) : headerData (headerOf tag data) = data := by
  apply BitVec.eq_of_toNat_eq
  rw [headerData_toNat, Laws.Spelled.headerOf_toNat]
  omega

/-- R70: a header word with clear reserved bits is its tag and its data byte. -/
theorem headerOf_headerTag_headerData {w : HalfWord} (h : headerReserved w = 0) :
    headerOf (headerTag w) (headerData w) = w := by
  have hres := (headerReserved_eq_zero_iff w).mp h
  apply BitVec.eq_of_toNat_eq
  rw [Laws.Spelled.headerOf_toNat, headerTag_toNat, headerData_toNat]
  omega

/-! ### What the decoder answers (R70 to R75) -/

/-- Settles O1: the decoder reads back the tag and the data byte the encoder writes. -/
theorem decodeEncodeRoundTrip : Obligations.DecodeEncodeRoundTrip := by
  intro i
  cases i with
  | powerOn => rfl
  | rxByte b => simp [encode, decode, decodeRxByte]
  | boundary => rfl
  | send a p => simp [encode, decode]

/-- R71, R73: everything a transaction without operands can be read from. -/
theorem decodePlain_eq_ok {i j : Instr} {data : Byte} {operand : List Byte} (h : decodePlain i data operand = .ok j) :
    data = 0 ∧ operand = [] ∧ j = i := by
  unfold decodePlain at h
  split at h
  · cases h
  · next hdata =>
    split at h
    · cases h
    · next hoperand => exact ⟨not_not.mp hdata, not_not.mp hoperand, (Except.ok.inj h).symm⟩

/-- R72: everything a received byte can be read from. -/
theorem decodeRxByte_eq_ok {j : Instr} {data : Byte} {operand : List Byte} (h : decodeRxByte data operand = .ok j) :
    operand = [] ∧ j = .rxByte data := by
  unfold decodeRxByte at h
  split at h
  · cases h
  · next hoperand => exact ⟨not_not.mp hoperand, (Except.ok.inj h).symm⟩

/-- R70 to R75: everything a transaction can be read from. -/
theorem decode_cases {t : Transaction} {i : Instr} (h : decode t = .ok i) :
    headerReserved t.header = 0 ∧
    ((headerTag t.header = 0x0 ∧ headerData t.header = 0 ∧ t.operand = [] ∧ i = .powerOn) ∨
     (headerTag t.header = 0x1 ∧ t.operand = [] ∧ i = .rxByte (headerData t.header)) ∨
     (headerTag t.header = 0x2 ∧ headerData t.header = 0 ∧ t.operand = [] ∧ i = .boundary) ∨
     (headerTag t.header = 0x3 ∧ i = .send (headerData t.header) t.operand)) := by
  unfold decode at h
  split at h
  · cases h
  · next hres =>
    refine ⟨not_not.mp hres, ?_⟩
    split at h
    · next htag => exact .inl ⟨htag, decodePlain_eq_ok h⟩
    · split at h
      · next htag => exact .inr (.inl ⟨htag, decodeRxByte_eq_ok h⟩)
      · split at h
        · next htag => exact .inr (.inr (.inl ⟨htag, decodePlain_eq_ok h⟩))
        · split at h
          · next htag => exact .inr (.inr (.inr ⟨htag, (Except.ok.inj h).symm⟩))
          · cases h

/-- Settles O3: in each case of `decode_cases` the fields read are the ones the encoder writes. -/
theorem decodedPairIsItsEncoding : Obligations.DecodedPairIsItsEncoding := by
  rintro ⟨w, p⟩ i h
  obtain ⟨hres, hcases⟩ := decode_cases h
  dsimp only at hres hcases
  have hw := headerOf_headerTag_headerData hres
  rcases hcases with ⟨htag, hdata, rfl, rfl⟩ | ⟨htag, rfl, rfl⟩ | ⟨htag, hdata, rfl, rfl⟩ | ⟨htag, rfl⟩
  · rw [← hw, htag, hdata]
    rfl
  · rw [encode, ← htag, hw]
  · rw [← hw, htag, hdata]
    rfl
  · rw [encode, ← htag, hw]

/-! ### Which pairs spell a transaction (R75) -/

/-- R71 to R74: the words of every transaction are well formed. -/
theorem encode_wellFormed (i : Instr) : (encode i).wellFormed = true := by
  cases i with
  | powerOn => exact Laws.Spelled.powerOn.1
  | rxByte b => exact (Laws.Spelled.rxByte b).1
  | boundary => exact Laws.Spelled.boundary.1
  | send a p => exact (Laws.Spelled.send a p).1

/-- R70 to R75: what a well-formed pair is, clause by clause. -/
theorem wellFormed_iff (t : Transaction) :
    t.wellFormed = true ↔ t.header.toNat / 0x100 % 0x10 = 0 ∧ t.header.toNat / 0x1000 < 4 ∧
      (t.header.toNat / 0x1000 = 0 ∨ t.header.toNat / 0x1000 = 2 → t.header.toNat % 0x100 = 0) ∧
      (t.header.toNat / 0x1000 ≠ 3 → t.operand = []) := by
  simp only [Transaction.wellFormed, Transaction.reservedClear, Transaction.tagInUse, Transaction.dataFits,
    Transaction.operandFits, Bool.and_eq_true, decide_eq_true_eq, and_assoc]

/-- R71 to R74: every well-formed pair is the words of a transaction. -/
theorem exists_encode_eq_of_wellFormed {t : Transaction} (h : t.wellFormed = true) : ∃ i, encode i = t := by
  obtain ⟨w, p⟩ := t
  obtain ⟨hres, htag, hdata, hoperand⟩ := (wellFormed_iff _).mp h
  simp only [← headerReserved_eq_zero_iff, ← headerTag_toNat, ← headerData_toNat] at hres htag hdata hoperand
  have hw := headerOf_headerTag_headerData hres
  obtain htag | htag | htag | htag : (headerTag w).toNat = 0 ∨ (headerTag w).toNat = 1 ∨ (headerTag w).toNat = 2 ∨
      (headerTag w).toNat = 3 := by omega
  · have htag' : headerTag w = 0x0 := BitVec.eq_of_toNat_eq htag
    have hdata' : headerData w = 0x00 := BitVec.eq_of_toNat_eq (hdata (.inl htag))
    exact ⟨.powerOn, by rw [encode, ← htag', ← hdata', hw, hoperand (by omega)]⟩
  · have htag' : headerTag w = 0x1 := BitVec.eq_of_toNat_eq htag
    exact ⟨.rxByte (headerData w), by rw [encode, ← htag', hw, hoperand (by omega)]⟩
  · have htag' : headerTag w = 0x2 := BitVec.eq_of_toNat_eq htag
    have hdata' : headerData w = 0x00 := BitVec.eq_of_toNat_eq (hdata (.inr htag))
    exact ⟨.boundary, by rw [encode, ← htag', ← hdata', hw, hoperand (by omega)]⟩
  · have htag' : headerTag w = 0x3 := BitVec.eq_of_toNat_eq htag
    exact ⟨.send (headerData w) p, by rw [encode, ← htag', hw]⟩

/-- R75: the decoder answers a transaction for the well-formed pairs and for no others. -/
theorem decode_ok_iff_wellFormed (t : Transaction) : (∃ i, decode t = .ok i) ↔ t.wellFormed = true := by
  constructor
  · rintro ⟨i, h⟩
    rw [← decodedPairIsItsEncoding t i h]
    exact encode_wellFormed i
  · intro h
    obtain ⟨i, rfl⟩ := exists_encode_eq_of_wellFormed h
    exact ⟨i, decodeEncodeRoundTrip i⟩

/-- R75: a pair that is not well formed is refused. -/
theorem decode_error_of_not_wellFormed {t : Transaction} (h : ¬ t.wellFormed = true) : ∃ e, decode t = .error e := by
  cases hd : decode t with
  | error e => exact ⟨e, rfl⟩
  | ok i => exact absurd ((decode_ok_iff_wellFormed t).mp ⟨i, hd⟩) h

/-- R75, R223: a step that fetches a pair the decoder refuses is refused with its error. -/
theorem Machine.step_of_decode_error {s : Machine.State} {t : Transaction} {rest : List Transaction} {e : DecodeError}
    (hinput : s.input = t :: rest) (h : decode t = .error e) : Machine.step s = .refused (.undecodable e) := by
  simp only [Machine.step, Machine.fetch_of_cons hinput, h]
  rfl

/-- Settles O4: with no stray operand, R75's three cases are the ways a pair fails to be well formed. -/
theorem everyOtherHeaderWordRefused : Obligations.EveryOtherHeaderWordRefused := by
  intro w p hoperand
  have hwf := wellFormed_iff ⟨w, p⟩
  dsimp only at hwf
  constructor
  · intro hbad
    obtain ⟨e, he⟩ := decode_error_of_not_wellFormed (t := ⟨w, p⟩) fun h => by
      obtain ⟨hres, htag, hdata, _⟩ := hwf.mp h
      omega
    exact ⟨e, he, fun s rest hinput => Machine.step_of_decode_error hinput he⟩
  · intro hgood
    exact (decode_ok_iff_wellFormed _).mpr (hwf.mpr ⟨by omega, by omega, fun _ => by omega, hoperand⟩)

/-- Settles O5: such a pair is not well formed. -/
theorem strayOperandRefused : Obligations.StrayOperandRefused := by
  intro t htag hoperand
  refine decode_error_of_not_wellFormed fun h => ?_
  obtain ⟨_, _, _, hfits⟩ := (wellFormed_iff t).mp h
  exact hoperand (hfits htag)

/-! ### The header words (R71 to R74) -/

/-- R71 to R74: the header word as the rules write it, the tag's bits above the data byte's. -/
theorem headerOf_eq_or (tag : BitVec 4) (data : Byte) :
    headerOf tag data = tag.setWidth 16 <<< 12 ||| data.setWidth 16 := by
  have hdata := data.isLt
  have hshift : (tag.setWidth 16 <<< 12).toNat = 2 ^ 12 * tag.toNat := by
    rw [BitVec.toNat_shiftLeft, BitVec.toNat_setWidth_of_le (by decide), Nat.shiftLeft_eq]
    omega
  apply BitVec.eq_of_toNat_eq
  rw [Laws.Spelled.headerOf_toNat, BitVec.toNat_or, hshift, BitVec.toNat_setWidth_of_le (by decide),
    ← Nat.two_pow_add_eq_or_of_lt (by omega)]
  omega

theorem encode_rxByte (b : Byte) : encode (.rxByte b) = ⟨0x1000 ||| b.setWidth 16, []⟩ :=
  congrArg (Transaction.mk · []) (headerOf_eq_or 0x1 b)

theorem encode_send (a : Byte) (p : List Byte) : encode (.send a p) = ⟨0x3000 ||| a.setWidth 16, p⟩ :=
  congrArg (Transaction.mk · p) (headerOf_eq_or 0x3 a)

/-- Settles O2: the words are read as O1 reads them back. -/
theorem headerWords : Obligations.HeaderWords := by
  refine ⟨rfl, encode_rxByte, rfl, encode_send, decodeEncodeRoundTrip .powerOn, fun b => ?_,
    decodeEncodeRoundTrip .boundary, fun a p => ?_⟩
  · rw [← encode_rxByte, decodeEncodeRoundTrip]
  · rw [← encode_send, decodeEncodeRoundTrip]

end Sys2Proof

namespace Sys2Proof.Machine

/-! ### The fold of a telemetry body (R65, R107) -/

theorem xor8_concat (bs : List Byte) (x : Byte) : xor8 (bs ++ [x]) = xor8 bs ^^^ x := by
  simp [xor8, List.foldl_append]

/-- R107: the fold does not depend on the order of the bytes. -/
theorem xor8_perm {bs cs : List Byte} (h : bs.Perm cs) : xor8 bs = xor8 cs :=
  h.foldl_eq' (fun x _ y _ z => by rw [BitVec.xor_assoc, BitVec.xor_comm x, BitVec.xor_assoc]) 0

/-- Settles O58: a fold with a trailer is the fold of the rest XOR the trailer, zero when the two are equal. -/
theorem foldChecksTrailerInAnyOrder : Obligations.FoldChecksTrailerInAnyOrder := by
  refine ⟨rfl, fun bs x => ?_, fun _ _ => xor8_perm⟩
  rw [xor8_concat]
  exact BitVec.xor_eq_zero_iff.trans eq_comm

/-! ### A measurement report (R66, R185, R187, R189) -/

/-- R128, R129: a byte that completes a frame hands the body to the decoder, in the state that has left the capture. -/
theorem exec_rxByte_of_completesFrame {s : State} {b : Byte} {body : List Byte} (hadm : s.cfg.admitted = true)
    (h : CompletesFrame s b body) : exec (.rxByte b) s = .next (tlmDecode body (afterFrame s body [])) := by
  obtain ⟨hd, rfl, hlen, hseven⟩ := h
  have hbyte : exec (.rxByte b) s = dmxByte b s := whenAdmitted_of_admitted hadm _
  rw [hbyte, dmxByte, hd]
  simp only [dmxCapture]
  rw [if_pos (by simpa [isBodyLength] using hlen), dmxComplete, if_neg (by omega), emit_tlmFrame_eq_afterFrame]

/-- R184, R185: the loop pairs each id whose bit is set with the value at four bytes per set bit before it. -/
theorem measLoop_eq_mapIdx (mask : Word) (payload : List Byte) (ids : List (Fin 32)) (cur : Nat) :
    measLoop mask payload ids cur = (ids.filter fun i : Fin 32 => mask.getLsbD i).mapIdx fun j i =>
      ⟨i, sint32 (le32 payload (cur + 4 * j))⟩ := by
  induction ids generalizing cur with
  | nil => rfl
  | cons i ids ih =>
    by_cases hi : mask.getLsbD i = true
    · have hcur (j : Nat) : cur + 4 + 4 * j = cur + 4 * (j + 1) := by omega
      rw [measLoop, if_pos hi, ih, List.filter_cons, if_pos hi, List.mapIdx_cons]
      simp only [hcur, Nat.mul_zero, Nat.add_zero]
    · rw [measLoop, if_neg hi, List.filter_cons, if_neg hi, ih]

/-- R185: the reported values, the `j`-th set bit's at payload bytes `4 + 4j` on. -/
theorem measValues_eq_mapIdx (mask : Word) (payload : List Byte) :
    measValues mask payload = (setBits mask).mapIdx fun j i => ⟨i, sint32 (le32 payload (4 + 4 * j))⟩ :=
  measLoop_eq_mapIdx mask payload _ 4

/-- R187, R189: a payload long enough for its mask is reported. -/
theorem tlmMeas_of_long_enough (ts : Word) {payload : List Byte} (s : State)
    (h : 4 + 4 * popcount (le32 payload 0) ≤ payload.length) :
    tlmMeas ts payload s = emit (.measReport ts (le32 payload 0) (measValues (le32 payload 0) payload)) s := by
  rw [tlmMeas, if_neg (by omega), if_neg (by omega)]

/-- R182, R183: a body with a zero fold and the measurement id is a measurement of its payload. -/
theorem tlmDecode_of_msgidMeas {body : List Byte} {s : State} (hxor : xor8 body = 0)
    (hid : byteAt body 1 = s.cfg.msgidMeas) :
    tlmDecode body s = tlmMeas (le32 body 2) (bodyPayload body) s := by
  rw [tlmDecode, if_neg (by simp [hxor]), if_pos hid]

/-- Settles O37: the decoder takes the measurement branch, and the loop's values are those of the closed form. -/
theorem measurementReported : Obligations.MeasurementReported := by
  rintro s b body _ _ hadm hframe hxor hid rfl rfl hlen
  rw [exec_rxByte_of_completesFrame hadm hframe, tlmDecode_of_msgidMeas (s := afterFrame s body []) hxor hid,
    bodyPayload, tlmMeas_of_long_enough _ _ hlen, emit_afterFrame, measValues_eq_mapIdx]
  rfl

end Sys2Proof.Machine
end

section
/-! The checksum rules (40_checksum.md): the 16-bit checksum (R100 to R106) and what the XOR fold detects (R108). -/

namespace Sys2Proof.Machine

/-! ### The shifts of the register (R100)

A shift is linear over XOR, so two registers that differ by `d` differ by the shifted `d` afterwards. -/

theorem crcShift_eq_xor (poly c : HalfWord) :
    crcShift poly c = (c >>> 1) ^^^ (if c.getLsbD 0 then poly else 0) := by
  rw [crcShift]
  split
  · rfl
  · exact BitVec.xor_zero.symm

theorem crcShift_xor (poly c d : HalfWord) : crcShift poly (c ^^^ d) = crcShift poly c ^^^ crcShift poly d := by
  have hpoly (p q : Bool) : (if p ^^ q then poly else 0) = (if p then poly else 0) ^^^ (if q then poly else 0) := by
    cases p <;> cases q <;> simp
  simp only [crcShift_eq_xor, BitVec.getLsbD_xor, BitVec.ushiftRight_xor_distrib, hpoly]
  ac_rfl

theorem crcShift_of_even {poly c : HalfWord} (h : c.getLsbD 0 = false) : crcShift poly c = c >>> 1 := by
  rw [crcShift, h]
  rfl

theorem crcShifts_eq_iterate (poly : HalfWord) (n : Nat) : crcShifts poly n = (crcShift poly)^[n] := by
  induction n with
  | zero => rfl
  | succ n ih =>
    funext c
    rw [crcShifts, ih, Function.iterate_succ_apply]

theorem crcShifts_add (poly : HalfWord) (m n : Nat) (c : HalfWord) :
    crcShifts poly (m + n) c = crcShifts poly m (crcShifts poly n c) := by
  simp only [crcShifts_eq_iterate, Function.iterate_add_apply]

theorem crcShifts_xor (poly : HalfWord) (n : Nat) (c d : HalfWord) :
    crcShifts poly n (c ^^^ d) = crcShifts poly n c ^^^ crcShifts poly n d := by
  induction n generalizing c d with
  | zero => rfl
  | succ n ih => rw [crcShifts, crcShift_xor, ih]; rfl

theorem crcShifts_zero (poly : HalfWord) (n : Nat) : crcShifts poly n 0#16 = 0#16 := by
  simpa using crcShifts_xor poly n 0 0

/-- R104: while the low bits are zero the polynomial is never XORed in. -/
theorem crcShifts_of_low_bits_zero (poly : HalfWord) {n : Nat} {c : HalfWord} (h : ∀ i < n, c.getLsbD i = false) :
    crcShifts poly n c = c >>> n := by
  induction n generalizing c with
  | zero => simp [crcShifts]
  | succ n ih =>
    have hlow : ∀ i < n, (c >>> 1).getLsbD i = false := fun i hi => by
      rw [BitVec.getLsbD_ushiftRight]
      exact h _ (by omega)
    rw [crcShifts, crcShift_of_even (h 0 n.succ_pos), ih hlow, ← BitVec.shiftRight_add, Nat.add_comm]

/-! ### The loop over the bytes (R101) -/

theorem checksum16_of_ne_nil (c : Config) {bs : List Byte} (h : bs ≠ []) :
    checksum16 c bs = crcFold c.crc16Poly c.crc16Init bs :=
  if_neg (mt List.length_eq_zero_iff.mp h)

theorem verify16_iff (c : Config) (bs : List Byte) : verify16 c bs = true ↔ checksum16 c bs = 0 :=
  decide_eq_true_iff

theorem crcFold_append (poly c : HalfWord) (bs cs : List Byte) :
    crcFold poly c (bs ++ cs) = crcFold poly (crcFold poly c bs) cs := by
  induction bs generalizing c with
  | nil => rfl
  | cons b bs ih => exact ih _

/-- R101: the checksum of a longer list goes on from the checksum of the bytes so far. -/
theorem checksum16_append (c : Config) {bs : List Byte} (h : bs ≠ []) (cs : List Byte) :
    checksum16 c (bs ++ cs) = crcFold c.crc16Poly (checksum16 c bs) cs := by
  rw [checksum16_of_ne_nil c (List.append_ne_nil_of_left_ne_nil h cs), crcFold_append, checksum16_of_ne_nil c h]

/-- A difference in the register goes through the rest of the loop as eight shifts per byte. -/
theorem crcFold_xor (poly c d : HalfWord) (bs : List Byte) :
    crcFold poly (c ^^^ d) bs = crcFold poly c bs ^^^ crcShifts poly (8 * bs.length) d := by
  induction bs generalizing c d with
  | nil => rfl
  | cons b bs ih =>
    have hbyte : crc16Byte poly (c ^^^ d) b = crc16Byte poly c b ^^^ crcShifts poly 8 d := by
      rw [crc16Byte, crc16Byte, ← crcShifts_xor]
      ac_rfl
    rw [crcFold, hbyte, ih, List.length_cons, Nat.mul_succ, crcShifts_add, crcFold]

/-- Settles O50. -/
theorem emptyInputChecksumIsZero : Obligations.EmptyInputChecksumIsZero := fun _ => ⟨rfl, rfl⟩

/-- Settles O51: the loop's equations, and the model's eight shifts as an iterate. -/
theorem checksumTakesBytesInOrder : Obligations.ChecksumTakesBytesInOrder := by
  refine ⟨fun c b => checksum16_of_ne_nil c (List.cons_ne_nil b []), fun c bs b h => checksum16_append c h [b],
    fun poly c b => ?_⟩
  rw [crc16Byte, crcShifts_eq_iterate]
  rfl

/-! ### A register and its two bytes (R10, R104, R105) -/

theorem le16_eq_xor (bs : List Byte) (i : Nat) :
    le16 bs i = (byteAt bs i).setWidth 16 ^^^ ((byteAt bs (i + 1)).setWidth 16 <<< 8) := by
  rw [le16]
  ext j hj
  by_cases h : j < 8
  · simp [h]
  · simp [h, BitVec.getLsbD_of_ge (byteAt bs i) j (by omega)]

theorem lowByte_toNat (c : HalfWord) : (lowByte c).toNat = c.toNat % 2 ^ 8 := by
  rw [lowByte, BitVec.extractLsb'_toNat, Nat.shiftRight_zero]

theorem highByte_toNat (c : HalfWord) : (highByte c).toNat = c.toNat / 2 ^ 8 := by
  have hc := c.isLt
  rw [highByte, BitVec.extractLsb'_toNat, Nat.shiftRight_eq_div_pow]
  omega

theorem highByte_setWidth (c : HalfWord) : (highByte c).setWidth 16 = c >>> 8 := by
  apply BitVec.eq_of_toNat_eq
  rw [BitVec.toNat_setWidth_of_le (by decide), highByte_toNat, BitVec.toNat_ushiftRight, Nat.shiftRight_eq_div_pow]

/-- R10, R60: the two bytes of a register, low byte first, are the register. -/
theorem le16_lowByte_highByte (c : HalfWord) : le16 [lowByte c, highByte c] 0 = c := by
  apply BitVec.eq_of_toNat_eq
  calc (le16 [lowByte c, highByte c] 0).toNat
      = (lowByte c).toNat + 2 ^ 8 * (highByte c).toNat := le16_toNat _ 0
    _ = c.toNat := by rw [lowByte_toNat, highByte_toNat, Nat.mod_add_div]

/-- R104: eight shifts bring a byte above the low byte down unchanged, whatever the low byte becomes. -/
theorem crcShifts_eight_le16 (poly : HalfWord) (lo hi : Byte) :
    crcShifts poly 8 (le16 [lo, hi] 0) = crcShifts poly 8 (lo.setWidth 16) ^^^ hi.setWidth 16 := by
  have hdown : crcShifts poly 8 (hi.setWidth 16 <<< 8) = hi.setWidth 16 := by
    have hlt := hi.isLt
    rw [crcShifts_of_low_bits_zero poly fun i hi8 => by simp [hi8]]
    apply BitVec.eq_of_toNat_eq
    simp only [BitVec.toNat_ushiftRight, BitVec.toNat_shiftLeft, BitVec.toNat_setWidth, Nat.shiftLeft_eq,
      Nat.shiftRight_eq_div_pow]
    omega
  rw [le16_eq_xor, crcShifts_xor]
  exact congrArg _ hdown

/-- Settles O55: only the low byte of the register and the new byte meet the polynomial; the high byte comes down. -/
theorem tableFormOfChecksumByte : Obligations.TableFormOfChecksumByte := by
  intro poly c b
  have hbyte : b.setWidth 16 >>> 8 = 0#16 := by
    rw [← BitVec.setWidth_ushiftRight (by decide), BitVec.ushiftRight_eq_zero (by decide)]
    rfl
  have hhigh : (c ^^^ b.setWidth 16) >>> 8 = c >>> 8 := by
    rw [BitVec.ushiftRight_xor_distrib, hbyte, BitVec.xor_zero]
  calc crc16Byte poly c b
      = crcShifts poly 8 (le16 [lowByte (c ^^^ b.setWidth 16), highByte (c ^^^ b.setWidth 16)] 0) := by
        rw [le16_lowByte_highByte, crc16Byte]
    _ = c >>> 8 ^^^ crcShifts poly 8 ((lowByte (c ^^^ b.setWidth 16)).setWidth 16) := by
        rw [crcShifts_eight_le16, highByte_setWidth, hhigh, BitVec.xor_comm]
    _ = c >>> 8 ^^^ crc16Byte poly 0x0000 ((c ^^^ b.setWidth 16).extractLsb' 0 8) := by
        simp only [crc16Byte, lowByte, BitVec.ofNat_eq_ofNat, BitVec.zero_xor]

/-! ### The registers no shift takes to zero (R104, R106)

With the polynomial's highest set bit at `h`, a shift of a register below `2 ^ (h + 1)` XORs in a bit `h` that the
register's own half does not have, so it stays below the bound and does not become zero. A single set bit comes down to
bit 0, which is below the bound, whatever the polynomial. -/

/-- A register that is not zero and no longer than the polynomial. -/
def NonzeroWithin (poly c : HalfWord) : Prop := c ≠ 0 ∧ c.toNat < 2 ^ (poly.toNat.log2 + 1)

/-- A register that no number of shifts takes to zero. -/
def NeverShiftedOut (poly c : HalfWord) : Prop := (∃ k < 16, c = BitVec.twoPow 16 k) ∨ NonzeroWithin poly c

theorem crcShift_ne_zero {poly c : HalfWord} (hc : c ≠ 0) (hpoly : c >>> 1 ≠ poly) : crcShift poly c ≠ 0 := by
  intro hzero
  cases hbit : c.getLsbD 0
  · rw [crcShift_of_even hbit] at hzero
    have hhalf : c.toNat / 2 = 0 := by simpa [Nat.shiftRight_eq_div_pow] using congrArg BitVec.toNat hzero
    have heven : c.toNat % 2 = 0 := by simpa [BitVec.getLsbD, Nat.testBit_zero] using hbit
    exact hc (BitVec.eq_of_toNat_eq (show c.toNat = 0 by omega))
  · rw [crcShift, if_pos hbit] at hzero
    exact hpoly (BitVec.xor_eq_zero_iff.mp hzero)

theorem crcShift_nonzeroWithin {poly c : HalfWord} (hpoly : poly ≠ 0) (h : NonzeroWithin poly c) :
    NonzeroWithin poly (crcShift poly c) := by
  obtain ⟨hc, hlt⟩ := h
  have hhalf : (c >>> 1).toNat = c.toNat / 2 := by
    rw [BitVec.toNat_ushiftRight, Nat.shiftRight_eq_div_pow]
  have hle : 2 ^ poly.toNat.log2 ≤ poly.toNat := Nat.log2_self_le fun h => hpoly (BitVec.eq_of_toNat_eq h)
  have hbound : poly.toNat < 2 ^ (poly.toNat.log2 + 1) := Nat.lt_log2_self
  constructor
  · refine crcShift_ne_zero hc fun heq => ?_
    have hhigh : 2 ^ poly.toNat.log2 ≤ c.toNat / 2 := by rwa [← hhalf, heq]
    rw [Nat.pow_succ] at hlt
    omega
  · rw [crcShift_eq_xor, BitVec.toNat_xor]
    refine Nat.xor_lt_two_pow (by omega) ?_
    split
    · exact hbound
    · exact Nat.two_pow_pos _

theorem crcShift_twoPow_succ (poly : HalfWord) {k : Nat} (h : k + 1 < 16) :
    crcShift poly (BitVec.twoPow 16 (k + 1)) = BitVec.twoPow 16 k := by
  rw [crcShift_of_even (by simp)]
  apply BitVec.eq_of_toNat_eq
  rw [BitVec.toNat_ushiftRight, BitVec.toNat_twoPow_of_lt h, BitVec.toNat_twoPow_of_lt (by omega), Nat.pow_succ,
    Nat.shiftRight_eq_div_pow, Nat.pow_one, Nat.mul_div_cancel _ (by decide)]

theorem NeverShiftedOut.ne_zero {poly c : HalfWord} (h : NeverShiftedOut poly c) : c ≠ 0 := by
  obtain ⟨k, hk, rfl⟩ | ⟨hc, -⟩ := h
  · intro hzero
    have hbit := congrArg (BitVec.getLsbD · k) hzero
    simp [hk] at hbit
  · exact hc

theorem crcShift_neverShiftedOut {poly c : HalfWord} (hpoly : poly ≠ 0) (h : NeverShiftedOut poly c) :
    NeverShiftedOut poly (crcShift poly c) := by
  obtain ⟨k, hk, rfl⟩ | h := h
  · cases k with
    | zero => exact .inr (crcShift_nonzeroWithin hpoly ⟨by decide, Nat.one_lt_two_pow (Nat.succ_ne_zero _)⟩)
    | succ k => exact .inl ⟨k, by omega, crcShift_twoPow_succ poly hk⟩
  · exact .inr (crcShift_nonzeroWithin hpoly h)

theorem crcShifts_ne_zero {poly c : HalfWord} (hpoly : poly ≠ 0) (n : Nat) (h : NeverShiftedOut poly c) :
    crcShifts poly n c ≠ 0 := by
  induction n generalizing c with
  | zero => exact h.ne_zero
  | succ n ih => exact ih (crcShift_neverShiftedOut hpoly h)

/-- With the polynomial's top bit set the shifts take no register but zero to zero. -/
theorem crcShifts_eq_zero_iff {poly : HalfWord} (h : poly.getLsbD 15 = true) (n : Nat) (c : HalfWord) :
    crcShifts poly n c = 0#16 ↔ c = 0#16 := by
  refine ⟨fun hzero => ?_, fun hc => by rw [hc, crcShifts_zero]⟩
  have htop : 2 ^ 15 ≤ poly.toNat := Nat.ge_two_pow_of_testBit h
  have hpoly : poly ≠ 0 := fun h0 => by
    rw [h0] at htop
    exact absurd htop (by decide)
  have hlog : 15 ≤ poly.toNat.log2 := (Nat.le_log2 (by omega)).mpr htop
  by_contra hc
  exact crcShifts_ne_zero hpoly n (.inr ⟨hc, c.isLt.trans_le (Nat.pow_le_pow_right (by decide) (by omega))⟩) hzero

/-! ### A list and its trailer (R104) -/

/-- R104: two more bytes are XORed in as one register value before sixteen shifts. -/
theorem crcFold_two (poly c : HalfWord) (lo hi : Byte) :
    crcFold poly c [lo, hi] = crcShifts poly 16 (c ^^^ le16 [lo, hi] 0) := by
  rw [crcShifts_add poly 8 8, crcShifts_xor, crcShifts_eight_le16, ← BitVec.xor_assoc, ← crcShifts_xor]
  rfl

/-- R104: the checksum of data and a trailer, from the XOR of the data's checksum and the trailer. -/
theorem checksum16_append_trailer (c : Config) {d : List Byte} (h : d ≠ []) (lo hi : Byte) :
    checksum16 c (d ++ [lo, hi]) = crcShifts c.crc16Poly 16 (checksum16 c d ^^^ le16 [lo, hi] 0) := by
  rw [checksum16_append c h, crcFold_two]

/-- Settles O52: a trailer equal to the checksum leaves a zero register. -/
theorem trailerGivesZeroResidue : Obligations.TrailerGivesZeroResidue := by
  refine ⟨fun c d h => ?_, by simp [checksum16, Config.default, crcFold, crc16Byte, crcShifts, crcShift]⟩
  change checksum16 c (d ++ [lowByte (checksum16 c d), highByte (checksum16 c d)]) = 0
  rw [checksum16_append_trailer c h, le16_lowByte_highByte, BitVec.xor_self, crcShifts_zero]
  rfl

theorem exists_eq_append_pair {bs : List Byte} (h : 3 ≤ bs.length) : ∃ d lo hi, d ≠ [] ∧ bs = d ++ [lo, hi] := by
  have htwo : (bs.drop (bs.length - 2)).length = 2 := by rw [List.length_drop]; omega
  obtain ⟨lo, hi, htail⟩ := List.length_eq_two.mp htwo
  refine ⟨bs.take (bs.length - 2), lo, hi, List.ne_nil_of_length_pos ?_, by rw [← htail, List.take_append_drop]⟩
  rw [List.length_take]
  omega

theorem le16_append_length (d : List Byte) (lo hi : Byte) : le16 (d ++ [lo, hi]) d.length = le16 [lo, hi] 0 := by
  have hlo : byteAt (d ++ [lo, hi]) d.length = byteAt [lo, hi] 0 := byteAt_append_length_add d [lo, hi] 0
  rw [le16, hlo, byteAt_append_length_add, le16]

/-- Settles O53: the sixteen shifts of the checksum XOR the trailer are zero exactly when the two are equal. -/
theorem verifiesIffTrailerMatches : Obligations.VerifiesIffTrailerMatches := by
  intro c bs hpoly hlen
  obtain ⟨d, lo, hi, hd, rfl⟩ := exists_eq_append_pair hlen
  have hdata : (d ++ [lo, hi]).length - 2 = d.length := by simp
  rw [hdata, List.take_left, le16_append_length, verify16_iff, checksum16_append_trailer c hd]
  exact (crcShifts_eq_zero_iff hpoly 16 _).trans BitVec.xor_eq_zero_iff

/-- Refutes O54: under the polynomial 0x0001 the list 00 03 00 verifies, and its trailer 03 00 is not the checksum of
its first byte (log entry 12). -/
theorem not_verifiesIffTrailerMatchesForEveryPolynomial :
    ¬ Obligations.VerifiesIffTrailerMatchesForEveryPolynomial := by
  intro h
  have hmatch := (h { Config.default with crc16Poly := 0x0001, crc16Init := 0 } [0x00, 0x03, 0x00] (by decide)
    (by decide)).mp (by simp [verify16, checksum16, crcFold, crc16Byte, crcShifts, crcShift])
  exact absurd hmatch (by decide)

/-! ### Single-bit corruption (R106) -/

/-- R106: a changed byte changes the checksum by the shifted change. -/
theorem checksum16_change_byte (c : Config) (f g : List Byte) (x e : Byte) :
    checksum16 c (f ++ (x ^^^ e) :: g) =
      checksum16 c (f ++ x :: g) ^^^ crcShifts c.crc16Poly (8 * (g.length + 1)) (e.setWidth 16) := by
  have hbyte (r : HalfWord) : crc16Byte c.crc16Poly r (x ^^^ e) =
      crc16Byte c.crc16Poly r x ^^^ crcShifts c.crc16Poly 8 (e.setWidth 16) := by
    rw [crc16Byte, BitVec.setWidth_xor, ← BitVec.xor_assoc, crcShifts_xor, crc16Byte]
  rw [checksum16_of_ne_nil c (by simp), checksum16_of_ne_nil c (by simp), crcFold_append, crcFold_append, crcFold,
    hbyte, crcFold_xor, Nat.mul_succ, crcShifts_add, crcFold]

/-- Settles O56: the change is the shifts of a single bit, never zero. -/
theorem singleBitCorruptionDetected : Obligations.SingleBitCorruptionDetected := by
  intro c f g x k hpoly hk hverifies
  have hbit : (BitVec.twoPow 8 k).setWidth 16 = BitVec.twoPow 16 k := by
    apply BitVec.eq_of_toNat_eq
    rw [BitVec.toNat_setWidth_of_le (by decide), BitVec.toNat_twoPow_of_lt hk, BitVec.toNat_twoPow_of_lt (by omega)]
  have hzero : checksum16 c (f ++ x :: g) = 0#16 := (verify16_iff c _).mp hverifies
  rw [← Bool.not_eq_true, verify16_iff, checksum16_change_byte, hzero, BitVec.zero_xor, hbit]
  exact crcShifts_ne_zero hpoly _ (.inl ⟨k, by omega, rfl⟩)

/-! ### What the XOR fold detects (R108) -/

theorem xor8_cons (b : Byte) (bs : List Byte) : xor8 (b :: bs) = b ^^^ xor8 bs := by
  rw [xor8_perm (List.perm_append_singleton b bs).symm, xor8_concat, BitVec.xor_comm]

/-- How many places of two lists differ in bit `k`. -/
def flips (bs cs : List Byte) (k : Nat) : Nat :=
  (List.zip bs cs).countP (fun q => q.1.getLsbD k != q.2.getLsbD k)

theorem flips_cons (b c : Byte) (bs cs : List Byte) (k : Nat) :
    flips (b :: bs) (c :: cs) k = flips bs cs k + if (b.getLsbD k ^^ c.getLsbD k) = true then 1 else 0 :=
  List.countP_cons

/-- R108: the folds differ in bit `k` exactly when it has an odd number of flips. -/
theorem xor8_xor_getLsbD {bs cs : List Byte} (h : cs.length = bs.length) (k : Nat) :
    (xor8 cs ^^^ xor8 bs).getLsbD k = decide (flips bs cs k % 2 = 1) := by
  induction bs generalizing cs with
  | nil =>
    rw [List.length_eq_zero_iff.mp h]
    simp [flips]
  | cons b bs ih =>
    obtain ⟨c, cs, rfl⟩ := List.exists_cons_of_length_eq_add_one h
    have hregroup : c ^^^ xor8 cs ^^^ (b ^^^ xor8 bs) = b ^^^ c ^^^ (xor8 cs ^^^ xor8 bs) := by ac_rfl
    rw [xor8_cons, xor8_cons, hregroup, BitVec.getLsbD_xor, ih (Nat.succ.inj h), BitVec.getLsbD_xor, flips_cons]
    cases b.getLsbD k ^^ c.getLsbD k
    · simp
    · rw [Bool.true_xor, if_pos rfl, ← decide_not]
      exact decide_eq_decide.mpr (by omega)

/-- Settles O57: two folds differ exactly when they differ in one of the bits 0 to 7. -/
theorem foldDetectsOddFlips : Obligations.FoldDetectsOddFlips := by
  intro bs cs h
  have hsame : xor8 cs = xor8 bs ↔ ∀ k < 8, ¬ flips bs cs k % 2 = 1 := by
    rw [← BitVec.xor_eq_zero_iff, BitVec.eq_of_getLsbD_eq_iff]
    simp only [xor8_xor_getLsbD h, BitVec.getLsbD_zero, decide_eq_false_iff_not]
  rw [ne_eq, hsame]
  push Not
  rfl

end Sys2Proof.Machine
end

section
/-! The demultiplexer rules (41_demux.md): what RX_BYTE does in each demultiplexer state (R121 to R130), what it leaves
unchanged (R120, R135), the account of every line byte (R132), and the identity law (R133). -/

namespace Sys2Proof.Machine

/-! ### RX_BYTE in each demultiplexer state (R121 to R129) -/

/-- R120: under an admitted configuration RX_BYTE is the demultiplexer's case over `dmx_state`. -/
theorem exec_rxByte_of_admitted {s : State} (h : s.cfg.admitted = true) (b : Byte) :
    exec (.rxByte b) s = dmxByte b s := whenAdmitted_of_admitted h _

/-- R120: in `COMMAND_BYTE` RX_BYTE is the test against the first marker byte. -/
theorem exec_rxByte_of_commandByte {s : State} (hadm : s.cfg.admitted = true) (hd : s.dmxState = .commandByte)
    (b : Byte) : exec (.rxByte b) s = .next (dmxIdle b s) := by
  rw [exec_rxByte_of_admitted hadm, dmxByte, hd]

/-- Settles O17. -/
theorem commandByteHoldsOrForwards : Obligations.CommandByteHoldsOrForwards := by
  intro s b hadm hd
  rw [exec_rxByte_of_commandByte hadm hd]
  constructor
  · intro hfirst
    rw [dmxIdle, if_pos hfirst]
    rfl
  · intro hother
    rw [dmxIdle, if_neg hother]

/-- R23: `SOF_(k+1)` holds the first `k + 1` marker bytes. -/
theorem held_sofState (c : Config) (k : Fin 4) : held c (sofState k) = c.sof.toList.take (k.val + 1) := by
  match k with
  | 0 => rfl
  | 1 => rfl
  | 2 => rfl
  | 3 => rfl

/-- R120: in `SOF_1` to `SOF_3` RX_BYTE is the match against the next marker byte. -/
theorem exec_rxByte_of_sofState {s : State} {k : Fin 3} (hadm : s.cfg.admitted = true)
    (hd : s.dmxState = sofState k.castSucc) (b : Byte) :
    exec (.rxByte b) s = .next (dmxMatch s.cfg.sof[k.val + 1] (sofState k.succ) b s) := by
  rw [exec_rxByte_of_admitted hadm, dmxByte, hd]
  match k with
  | 0 => rfl
  | 1 => rfl
  | 2 => rfl

/-- Settles O20: the next marker byte is tested before `SOF[0]`. -/
theorem nextMarkerByteAdvances : Obligations.NextMarkerByteAdvances := by
  intro s b k hadm hd hb
  rw [exec_rxByte_of_sofState hadm hd, dmxMatch, if_pos hb]
  rfl

/-- Settles O21. -/
theorem firstMarkerByteRestarts : Obligations.FirstMarkerByteRestarts := by
  intro s b k hadm hd hnext hfirst
  rw [exec_rxByte_of_sofState hadm hd, dmxMatch, if_neg hnext, if_pos hfirst, dmxRestart, hd, held_sofState]
  rfl

/-- Settles O22. -/
theorem otherByteBreaksMatch : Obligations.OtherByteBreaksMatch := by
  intro s b k hadm hd hnext hfirst
  rw [exec_rxByte_of_sofState hadm hd, dmxMatch, if_neg hnext, if_neg hfirst, dmxFail, hd, held_sofState,
    cmdSinkAll_append]
  rfl

/-- R120: in `SOF_4` RX_BYTE is the length test. -/
theorem exec_rxByte_of_sof4 {s : State} (hadm : s.cfg.admitted = true) (hd : s.dmxState = .sof4) (b : Byte) :
    exec (.rxByte b) s = .next (dmxLength b s) := by
  rw [exec_rxByte_of_admitted hadm, dmxByte, hd]

/-- R125, R126: a rejected length routes the marker and the length byte after the diagnostic. -/
theorem dmxLenReject_of_sof4 {s : State} (hd : s.dmxState = .sof4) (code : LenCode) (b : Byte) :
    dmxLenReject code b s =
      { cmdSinkAll (s.cfg.sof.toList ++ [b]) { s with output := s.output ++ [.dmxLenReject code b] } with
        dmxState := .commandByte } := by
  have hheld : held s.cfg s.dmxState = s.cfg.sof.toList := by rw [hd, held_sof4]
  rw [dmxLenReject, hheld, cmdSinkAll_append]
  rfl

/-- Settles O23. -/
theorem lengthOutOfRangeRejected : Obligations.LengthOutOfRangeRejected := by
  intro s b hadm hd
  rw [exec_rxByte_of_sof4 hadm hd]
  constructor
  · intro hsmall
    rw [dmxLength, if_pos hsmall, dmxLenReject_of_sof4 hd]
  · intro hmin hlarge
    rw [dmxLength, if_neg (by omega), if_pos hlarge, dmxLenReject_of_sof4 hd]

/-- Settles O24. -/
theorem lengthInRangeAccepted : Obligations.LengthInRangeAccepted := by
  intro s b hadm hd hmin hmax
  rw [exec_rxByte_of_sof4 hadm hd, dmxLength, if_neg (by omega), if_neg (by omega)]
  rfl

/-- R120: in `TELEMETRY_PAYLOAD` RX_BYTE is the capture of its byte. -/
theorem exec_rxByte_of_capturing {s : State} (hadm : s.cfg.admitted = true) (hd : s.dmxState = .telemetryPayload)
    (b : Byte) : exec (.rxByte b) s = dmxCapture b s := by
  rw [exec_rxByte_of_admitted hadm, dmxByte, hd]

/-- Settles O25. -/
theorem captureAppendsByte : Obligations.CaptureAppendsByte := by
  intro s b hadm hd hmore
  rw [exec_rxByte_of_capturing hadm hd, dmxCapture, if_neg (by simpa [isBodyLength] using hmore)]
  rfl

/-- Settles O26: the declared length is at least `TLM_MIN_LEN` (R29 (4)), which holds the seven bytes (R7). -/
theorem captureCompletesFrame : Obligations.CaptureCompletesFrame := by
  intro s b hadm hinv hd hlen
  obtain ⟨hheader, _⟩ := admitted_clauses hadm
  obtain ⟨hmin, _, hpos, _⟩ := hinv.2 hd
  have hdeclared := congrArg BitVec.toNat (byteAt_zero_append hpos [b])
  have hseven : 7 ≤ (s.tlmBuf ++ [b]).length := by omega
  exact ⟨hseven, exec_rxByte_of_completesFrame hadm ⟨hd, rfl, hlen, hseven⟩⟩

/-! ### What RX_BYTE leaves unchanged (R120, R135) -/

/-- R128, R129, R135: during a capture RX_BYTE touches neither the receiver nor the forwarded bytes. -/
theorem rxByte_frame_of_capturing {b : Byte} {s t : State} (hd : s.dmxState = .telemetryPayload)
    (h : dmxByte b s = .next t) :
    t.rxState = s.rxState ∧ t.rxBuf = s.rxBuf ∧ cmdBytes t.output = cmdBytes s.output := by
  rcases dmxByte_cases h with ⟨hd', _⟩ | ⟨hd', _⟩ | ⟨hd', _⟩ | ⟨hd', _⟩ | ⟨hd', _⟩ | ⟨_, _, rfl⟩ | ⟨_, rfl⟩
  · exact absurd hd hd'
  · exact absurd hd hd'
  · exact absurd hd hd'
  · exact absurd (hd.symm.trans hd') nofun
  · exact absurd (hd.symm.trans hd') nofun
  · exact ⟨rfl, rfl, rfl⟩
  · exact ⟨by simp, by simp, by simp [cmdBytes_append, cmdBytes]⟩

/-- R120: outside a capture RX_BYTE leaves the latch, and outside `SOF_4` too it leaves the capture buffer. -/
theorem rxByte_frame_of_not_capturing {b : Byte} {s t : State} (hd : s.dmxState ≠ .telemetryPayload)
    (h : dmxByte b s = .next t) :
    t.pwrLatch = s.pwrLatch ∧ (s.dmxState ≠ .sof4 → t.tlmBuf = s.tlmBuf) := by
  rcases dmxByte_cases h with ⟨_, _, d, _, _, rfl⟩ | ⟨_, _, _, rfl⟩ | ⟨_, _, _, rfl⟩ | ⟨_, c, _, rfl⟩ | ⟨hd4, _, _, rfl⟩ |
    ⟨hd', _⟩ | ⟨⟨hd', _⟩, _⟩
  · exact ⟨rfl, fun _ => rfl⟩
  · exact ⟨by simp, by simp⟩
  · exact ⟨by simp, by simp⟩
  · exact ⟨by simp, by simp⟩
  · exact ⟨rfl, fun hne => absurd hd4 hne⟩
  · exact absurd hd' hd
  · exact absurd hd' hd

/-- Settles O28. -/
theorem rxByteFrame : Obligations.RxByteFrame := by
  intro s t b h
  have hbyte := (rxByte_next h).2
  obtain ⟨hcfg, hinput, _⟩ := rxByte_extendsOutput hbyte
  exact ⟨fun hd => rxByte_frame_of_capturing hd hbyte, fun hd => (rxByte_frame_of_not_capturing hd hbyte).1,
    fun hd => (rxByte_frame_of_not_capturing hd hbyte).2, hcfg, hinput⟩

/-! ### The account of every line byte (R132) -/

/-- R132: outside a capture only the held bytes are pending. -/
theorem accountedBytes_of_not_capturing {s : State} (hd : s.dmxState ≠ .telemetryPayload) :
    accountedBytes s = routedBytes s.cfg s.output ++ held s.cfg s.dmxState := by
  simp [accountedBytes, pendingBytes, hd]

/-- R132: during a capture the marker and the captured bytes are pending. -/
theorem accountedBytes_of_capturing {s : State} (hd : s.dmxState = .telemetryPayload) :
    accountedBytes s = routedBytes s.cfg s.output ++ (s.cfg.sof.toList ++ s.tlmBuf) := by
  simp [accountedBytes, pendingBytes, hd]

/-- An event that accounts for no line byte leaves the account. -/
theorem emit_accountedBytes {e : Event} {s : State} (h : routedBytes s.cfg [e] = []) :
    accountedBytes (emit e s) = accountedBytes s := by
  rw [accountedBytes, emit_cfg, emit_output, routedBytes_append, h, List.append_nil]
  rfl

/-- R123, R124, R152: bytes routed to the command sink are accounted for after the events so far, and before what the
next state holds. -/
theorem accountedBytes_route_then_hold (d : DmxState) (hd : d ≠ .telemetryPayload) (bs : List Byte) (s : State) :
    accountedBytes (setDmxState d (cmdSinkAll bs s)) = routedBytes s.cfg s.output ++ bs ++ held s.cfg d := by
  rw [accountedBytes_of_not_capturing hd]
  simp [routedBytes_append]

/-- R193: no result of the decoder accounts for a line byte. -/
theorem routedBytes_of_decoderResult (c : Config) {e : Event} (h : isDecoderResult e = true) :
    routedBytes c [e] = [] := by
  cases e with
  | cmdByte b => exact absurd h nofun
  | tlmFrame body => exact absurd h nofun
  | _ => rfl

/-- R180: the decoder leaves the account. -/
theorem tlmDecode_accountedBytes (body : List Byte) (s : State) :
    accountedBytes (tlmDecode body s) = accountedBytes s := by
  rcases tlmDecode_cases body s with ⟨e, he, _, h⟩ | ⟨_, h⟩ | ⟨_, h⟩
  · rw [h, emit_accountedBytes (routedBytes_of_decoderResult _ he)]
  · rw [h, emit_accountedBytes rfl]
    rfl
  · rw [h]

/-- R129: a completed frame accounts for its marker and its body, and nothing is pending. -/
theorem accountedBytes_afterFrame (s : State) (body : List Byte) :
    accountedBytes (afterFrame s body []) = routedBytes s.cfg s.output ++ (s.cfg.sof.toList ++ body) := by
  rw [accountedBytes_of_not_capturing (s := afterFrame s body []) nofun]
  simp [routedBytes_append, routedBytes]

/-- R132 over an RX_BYTE: its byte is accounted for last. -/
theorem rxByte_accountedBytes {b : Byte} {s t : State} (h : dmxByte b s = .next t) :
    accountedBytes t = accountedBytes s ++ [b] := by
  rcases dmxByte_cases h with ⟨hd, _, d, hd', hheld, rfl⟩ | ⟨hd, _, hb, rfl⟩ | ⟨hd, _, _, rfl⟩ | ⟨hd, c, _, rfl⟩ |
    ⟨hd, _, _, rfl⟩ | ⟨hd, _, rfl⟩ | ⟨⟨hd, _⟩, rfl⟩
  · rw [accountedBytes_of_not_capturing (s := setDmxState d s) hd', accountedBytes_of_not_capturing hd,
      List.append_assoc, hheld]
    rfl
  · rw [accountedBytes_route_then_hold .sof1 nofun, accountedBytes_of_not_capturing hd, held_sof1, hb]
  · rw [accountedBytes_route_then_hold .commandByte nofun, accountedBytes_of_not_capturing hd, held_commandByte,
      List.append_nil, List.append_assoc]
  · rw [accountedBytes_route_then_hold .commandByte nofun, accountedBytes_of_not_capturing (by simp [hd]), hd]
    simp [routedBytes_append, routedBytes]
  · rw [accountedBytes_of_capturing rfl, accountedBytes_of_not_capturing (by simp [hd]), hd, held_sof4,
      List.append_assoc]
    rfl
  · rw [accountedBytes_of_capturing (s := setTlmBuf (s.tlmBuf ++ [b]) s) hd, accountedBytes_of_capturing hd,
      List.append_assoc, List.append_assoc]
    rfl
  · rw [emit_tlmFrame_eq_afterFrame, tlmDecode_accountedBytes, accountedBytes_afterFrame,
      accountedBytes_of_capturing hd, List.append_assoc, List.append_assoc]

/-- R152: the flush routes the held bytes, in order. -/
theorem boundaryFlush_accountedBytes (s : State) : accountedBytes (boundaryFlush s) = accountedBytes s := by
  rcases boundaryFlush_cases s with h | ⟨hd, h⟩
  · rw [h]
  · rw [h, accountedBytes_route_then_hold .commandByte nofun, accountedBytes_of_not_capturing hd, held_commandByte,
      List.append_nil]

/-- R153: the validator leaves the account. -/
theorem cmdValidate_accountedBytes (frame : List Byte) (s : State) :
    accountedBytes (cmdValidate frame s) = accountedBytes s := by
  rcases cmdValidate_cases frame s with ⟨_, h⟩ | ⟨_, _, h⟩ | ⟨_, _, h⟩ <;> rw [h, emit_accountedBytes rfl]

/-- R152: the report leaves the account. -/
theorem boundaryReport_accountedBytes (s : State) : accountedBytes (boundaryReport s) = accountedBytes s := by
  rcases boundaryReport_cases s with ⟨_, h⟩ | ⟨_, h⟩ | ⟨_, h⟩
  · rw [h]
  · rw [h, cmdValidate_accountedBytes]
  · rw [h, emit_accountedBytes rfl]

/-- R152: BOUNDARY leaves the account: the return to idle touches nothing it reads. -/
theorem boundary_accountedBytes {s t : State} (h : exec .boundary s = .next t) :
    accountedBytes t = accountedBytes s := by
  obtain ⟨_, hnext⟩ := whenAdmitted_eq_next.mp h
  calc accountedBytes t
      = accountedBytes (boundaryReport (boundaryFlush s)) := by rw [← Host.Outcome.next.inj hnext]; rfl
    _ = accountedBytes s := by rw [boundaryReport_accountedBytes, boundaryFlush_accountedBytes]

/-- R155: building a frame leaves the account. -/
theorem cmdBuild_accountedBytes (a : Byte) (p : List Byte) (s : State) :
    accountedBytes (cmdBuild a p s) = accountedBytes s := by
  rw [cmdBuild, cmdClassify, emit_accountedBytes rfl, txBytes_eq]
  simp [accountedBytes, pendingBytes, routedBytes_append]

/-- R154: SEND leaves the account. -/
theorem send_accountedBytes {a : Byte} {p : List Byte} {s t : State} (h : exec (.send a p) s = .next t) :
    accountedBytes t = accountedBytes s := by
  obtain ⟨_, hnext⟩ := whenAdmitted_eq_next.mp h
  rw [← Host.Outcome.next.inj hnext]
  split
  · exact emit_accountedBytes rfl
  · split
    · exact emit_accountedBytes rfl
    · exact cmdBuild_accountedBytes a p s

/-- R132 over one transaction but POWER_ON: the line byte it takes is accounted for last. -/
theorem exec_accountedBytes {i : Instr} {s t : State} (hi : i ≠ .powerOn) (h : exec i s = .next t) :
    accountedBytes t = accountedBytes s ++ lineBytes [i] := by
  cases i with
  | powerOn => exact absurd rfl hi
  | rxByte b => exact rxByte_accountedBytes (rxByte_next h).2
  | boundary => rw [boundary_accountedBytes h, lineBytes, lineBytes, List.append_nil]
  | send a p => rw [send_accountedBytes h, lineBytes, lineBytes, List.append_nil]

/-- R132 over a run without POWER_ON, from any state. -/
theorem runAll_accountedBytes {is : List Instr} {s t : State} (hno : Instr.powerOn ∉ is) (h : runAll is s = some t) :
    accountedBytes t = accountedBytes s ++ lineBytes is := by
  induction is generalizing s with
  | nil => rw [← Option.some.inj h, lineBytes, List.append_nil]
  | cons i is ih =>
    obtain ⟨hi, his⟩ := List.ne_and_not_mem_of_not_mem_cons hno
    obtain ⟨u, hexec, hrun⟩ := runAll_cons_eq_some h
    rw [ih his hrun, exec_accountedBytes hi.symm hexec, List.append_assoc, ← lineBytes_append, List.singleton_append]

/-- Settles O30: the launch state accounts for no byte. -/
theorem noLossNoDuplication : Obligations.NoLossNoDuplication :=
  ⟨fun _ _ _ => runAll_accountedBytes, fun _ _ _ hno h => (runAll_accountedBytes hno h).symm⟩

/-! ### The identity law (R133)

The marker bytes a state holds are the last line bytes taken. So `SOF_4`, which holds all four, is not entered before the
line bytes contain the marker; no capture starts; and without a capture only POWER_ON drops a byte. -/

/-- R133: no capture has started, and the held marker bytes end the line bytes `xs`. -/
structure HeldEndsLine (xs : List Byte) (s : State) : Prop where
  not_capturing : s.dmxState ≠ .telemetryPayload
  held_suffix : held s.cfg s.dmxState <:+ xs

theorem HeldEndsLine.ne_sof4 {xs : List Byte} {s : State} (h : HeldEndsLine xs s)
    (hmark : ¬ s.cfg.sof.toList <:+: xs) : s.dmxState ≠ .sof4 := by
  intro hd
  have hsuffix := h.held_suffix
  rw [hd, held_sof4] at hsuffix
  exact hmark hsuffix.isInfix

/-- R246: a transaction is an RX_BYTE, or it takes no line byte and leaves the demultiplexer where it is or in
`COMMAND_BYTE`. -/
theorem exec_dmxState_cases {i : Instr} {s t : State} (h : exec i s = .next t) :
    (∃ b, i = .rxByte b ∧ dmxByte b s = .next t) ∨
    (lineBytes [i] = [] ∧ (t.dmxState = s.dmxState ∨ t.dmxState = .commandByte)) := by
  cases i with
  | powerOn => exact .inr ⟨rfl, .inr (by rw [powerOn_next h]; rfl)⟩
  | rxByte b => exact .inl ⟨b, rfl, (rxByte_next h).2⟩
  | boundary =>
    obtain ⟨es, rfl⟩ := boundary_next h
    rcases boundaryFlush_cases s with hflush | ⟨_, hflush⟩
    · exact .inr ⟨rfl, .inl (by rw [hflush]; rfl)⟩
    · exact .inr ⟨rfl, .inr (by rw [hflush]; rfl)⟩
  | send a p =>
    obtain ⟨es, rfl⟩ := send_next h
    exact .inr ⟨rfl, .inl rfl⟩

/-- R120: outside a capture and `SOF_4`, RX_BYTE starts no capture, holds the last bytes of those held before and its
own, and drops no byte. -/
theorem rxByte_of_matching {b : Byte} {s t : State} (hd : s.dmxState ≠ .telemetryPayload) (hd4 : s.dmxState ≠ .sof4)
    (h : dmxByte b s = .next t) :
    HeldEndsLine (held s.cfg s.dmxState ++ [b]) t ∧ forwardedOrHeld t = forwardedOrHeld s ++ [b] := by
  rcases dmxByte_cases h with ⟨_, _, d, hd', hheld, rfl⟩ | ⟨_, _, hb, rfl⟩ | ⟨_, _, _, rfl⟩ | ⟨hd', _⟩ | ⟨hd', _⟩ |
    ⟨hd', _⟩ | ⟨⟨hd', _⟩, _⟩
  · exact ⟨⟨hd', by simp [hheld]⟩, by simp [forwardedOrHeld, hheld]⟩
  · exact ⟨⟨nofun, by simp [held_sof1, hb]⟩, by simp [forwardedOrHeld, cmdBytes_append, held_sof1, hb]⟩
  · exact ⟨⟨nofun, List.nil_suffix⟩, by simp [forwardedOrHeld, cmdBytes_append, cmdBytes]⟩
  · exact absurd hd' hd4
  · exact absurd hd' hd4
  · exact absurd hd' hd
  · exact absurd hd' hd

/-- R133 over one transaction: outside `SOF_4` the held bytes go on ending the line bytes. -/
theorem HeldEndsLine.exec_next {i : Instr} {xs : List Byte} {s t : State} (hs : HeldEndsLine xs s)
    (hd4 : s.dmxState ≠ .sof4) (h : exec i s = .next t) : HeldEndsLine (xs ++ lineBytes [i]) t := by
  have hcfg := (configurationFixedAndEventsOnlyAppended i s t h).1
  rcases exec_dmxState_cases h with ⟨b, rfl, hbyte⟩ | ⟨hline, hd | hd⟩
  · obtain ⟨hnot, hsuffix⟩ := (rxByte_of_matching hs.not_capturing hd4 hbyte).1
    exact ⟨hnot, hsuffix.trans (List.suffix_append_self_iff.mpr hs.held_suffix)⟩
  · rw [hline, List.append_nil]
    exact ⟨hd ▸ hs.not_capturing, by rw [hcfg, hd]; exact hs.held_suffix⟩
  · exact ⟨by simp [hd], by simp [hd]⟩

/-- R133: outside a capture and `SOF_4` no transaction but POWER_ON drops a byte. -/
theorem exec_forwardedOrHeld_of_matching {i : Instr} {s t : State} (hi : i ≠ .powerOn)
    (hd : s.dmxState ≠ .telemetryPayload) (hd4 : s.dmxState ≠ .sof4) (h : exec i s = .next t) :
    forwardedOrHeld t = forwardedOrHeld s ++ lineBytes [i] := by
  cases i with
  | powerOn => exact absurd rfl hi
  | rxByte b => exact (rxByte_of_matching hd hd4 (rxByte_next h).2).2
  | boundary => rw [boundary_forwardedOrHeld h, lineBytes, lineBytes, List.append_nil]
  | send a p =>
    have hcmd := send_cmdBytes h
    obtain ⟨es, rfl⟩ := send_next h
    simp [forwardedOrHeld, hcmd, lineBytes]

/-- R212: outside a capture every transaction has a next state. -/
theorem exists_exec_eq_next {s : State} (hadm : s.cfg.admitted = true) (hd : s.dmxState ≠ .telemetryPayload)
    (i : Instr) : ∃ t, exec i s = .next t := by
  cases i with
  | powerOn => exact ⟨_, whenAdmitted_of_admitted hadm _⟩
  | rxByte b =>
    rw [exec_rxByte_of_admitted hadm, dmxByte]
    cases hs : s.dmxState with
    | telemetryPayload => exact absurd hs hd
    | _ => exact ⟨_, rfl⟩
  | boundary => exact ⟨_, exec_boundary_of_admitted hadm⟩
  | send a p => exact ⟨_, whenAdmitted_of_admitted hadm _⟩

theorem runAll_cons_of_next {i : Instr} {s u : State} (h : exec i s = .next u) (is : List Instr) :
    runAll (i :: is) s = runAll is u := by rw [runAll, h]

/-- R133 over a run: while the line bytes hold no marker the run goes on, the held bytes go on ending the line bytes, and
only POWER_ON drops a byte. -/
theorem runAll_of_no_marker {is : List Instr} {xs : List Byte} {s : State} (hadm : s.cfg.admitted = true)
    (hs : HeldEndsLine xs s) (hmark : ¬ s.cfg.sof.toList <:+: xs ++ lineBytes is) :
    ∃ t, runAll is s = some t ∧ t.cfg = s.cfg ∧ HeldEndsLine (xs ++ lineBytes is) t ∧
      (Instr.powerOn ∉ is → forwardedOrHeld t = forwardedOrHeld s ++ lineBytes is) := by
  induction is generalizing xs s with
  | nil => exact ⟨s, rfl, rfl, by simpa [lineBytes] using hs, fun _ => by simp [lineBytes]⟩
  | cons i is ih =>
    have hline : lineBytes (i :: is) = lineBytes [i] ++ lineBytes is := lineBytes_append [i] is
    have hd4 := hs.ne_sof4 fun hsof => hmark (hsof.trans (List.prefix_append xs _).isInfix)
    rw [hline, ← List.append_assoc] at hmark ⊢
    obtain ⟨u, hu⟩ := exists_exec_eq_next hadm hs.not_capturing i
    have hcfg := (configurationFixedAndEventsOnlyAppended i s u hu).1
    obtain ⟨t, hrun, htcfg, ht, hforward⟩ := ih (hcfg ▸ hadm) (hs.exec_next hd4 hu) (hcfg ▸ hmark)
    refine ⟨t, (runAll_cons_of_next hu is).trans hrun, htcfg.trans hcfg, ht, fun hno => ?_⟩
    obtain ⟨hi, his⟩ := List.ne_and_not_mem_of_not_mem_cons hno
    rw [hforward his, exec_forwardedOrHeld_of_matching hi.symm hs.not_capturing hd4 hu, List.append_assoc]

/-- Settles O32: at launch nothing is held and no byte is forwarded. -/
theorem identityLawWithoutMarker : Obligations.IdentityLawWithoutMarker := by
  intro c is hadm hmark
  have hlaunch : HeldEndsLine [] { State.reset with cfg := c } := ⟨nofun, List.suffix_rfl⟩
  obtain ⟨t, hrun, rfl, ht, hforward⟩ := runAll_of_no_marker hadm hlaunch hmark
  exact ⟨t, hrun, ht.ne_sof4 hmark, ht.not_capturing, fun hno => (hforward hno).symm⟩

end Sys2Proof.Machine
end

section
/-! The command codec rules (42_command_codec.md): the command sink (R150), BOUNDARY (R152, R153, R159), SEND (R154 to
R157), and the round trip of a sent frame (R158). -/

namespace Sys2Proof.Machine

/-! ### The command sink (R150) -/

theorem cmdSink_of_idle {s : State} (h : s.rxState = .idle) (b : Byte) :
    cmdSink b s = { s with rxBuf := [b], rxState := .active, output := s.output ++ [.cmdByte b] } := by
  rw [cmdSink, rxAppend, emit_rxState, h]
  rfl

theorem cmdSink_of_room {s : State} (h : s.rxState = .active) (hroom : s.rxBuf.length < s.cfg.cmdBufMax) (b : Byte) :
    cmdSink b s = { s with rxBuf := s.rxBuf ++ [b], output := s.output ++ [.cmdByte b] } := by
  simp [cmdSink, rxAppend, h, hroom, setRxBuf, emit]

theorem cmdSink_of_full {s : State} (h : s.rxState = .active) (hfull : ¬ s.rxBuf.length < s.cfg.cmdBufMax) (b : Byte) :
    cmdSink b s = { s with rxState := .error, output := s.output ++ [.cmdByte b] } := by
  simp [cmdSink, rxAppend, h, hfull, setRxState, emit]

theorem cmdSink_of_error {s : State} (h : s.rxState = .error) (b : Byte) :
    cmdSink b s = { s with output := s.output ++ [.cmdByte b] } := by
  simp [cmdSink, rxAppend, h, emit]

/-- Settles O18: such a byte goes to the command sink (R121), which has one law per receiver state. -/
theorem sunkByteEntersReceiveBuffer : Obligations.SunkByteEntersReceiveBuffer := by
  intro s b hadm hd hb
  rw [(commandByteHoldsOrForwards s b hadm hd).2 hb]
  refine ⟨fun h => ?_, fun h hroom => ?_, fun h hfull => ?_, fun h => ?_⟩
  · rw [cmdSink_of_idle h]
  · rw [cmdSink_of_room h hroom]
  · rw [cmdSink_of_full h hfull]
  · rw [cmdSink_of_error h]

/-- R29 (2), (3) through one byte. -/
theorem cmdSink_receiverInv (b : Byte) {s : State} (hm : 1 ≤ s.cfg.cmdBufMax) (h : ReceiverInv s) :
    ReceiverInv (cmdSink b s) := cmdSinkAll_receiverInv [b] hm h

/-- R150 under R29 (2), (3): the buffer takes the byte, up to its capacity. -/
theorem cmdSink_rxBuf (b : Byte) {s : State} (hm : 1 ≤ s.cfg.cmdBufMax) (h : ReceiverInv s) :
    (cmdSink b s).rxBuf = (s.rxBuf ++ [b]).take s.cfg.cmdBufMax := by
  obtain ⟨hidle, _, herror, hmax⟩ := h
  cases hs : s.rxState with
  | idle => rw [cmdSink_of_idle hs, hidle.mp hs, List.nil_append, List.take_of_length_le hm]
  | active =>
    by_cases hroom : s.rxBuf.length < s.cfg.cmdBufMax
    · rw [cmdSink_of_room hs hroom, List.take_of_length_le (by simpa using hroom)]
    · rw [cmdSink_of_full hs hroom, List.take_left' (by omega)]
  | error => rw [cmdSink_of_error hs, List.take_left' (herror hs)]

/-- R150 under R29 (2), (3): the receiver is active after a byte that fits and in error after any other. -/
theorem cmdSink_rxState (b : Byte) {s : State} (hm : 1 ≤ s.cfg.cmdBufMax) (h : ReceiverInv s) :
    (cmdSink b s).rxState =
      if s.rxState = .error ∨ s.cfg.cmdBufMax ≤ s.rxBuf.length then .error else .active := by
  obtain ⟨hidle, _, herror, hmax⟩ := h
  cases hs : s.rxState with
  | idle =>
    rw [cmdSink_of_idle hs, hidle.mp hs]
    exact (if_neg (not_or.mpr ⟨nofun, Nat.not_le_of_lt hm⟩)).symm
  | active =>
    by_cases hroom : s.rxBuf.length < s.cfg.cmdBufMax
    · rw [cmdSink_of_room hs hroom, if_neg (by simpa using hroom)]
      exact hs
    · rw [cmdSink_of_full hs hroom, if_pos (.inr (by omega))]
  | error =>
    rw [cmdSink_of_error hs, if_pos (.inl rfl)]
    exact hs

theorem take_take_append {α : Type} (n : Nat) (l r : List α) : (l.take n ++ r).take n = (l ++ r).take n := by
  have hroom : n - min n l.length = n - l.length := by omega
  rw [List.take_append, List.take_append, List.take_take, Nat.min_self, List.length_take, hroom]

/-- R150, R215: the buffer takes several bytes in order, up to its capacity. -/
theorem cmdSinkAll_rxBuf (xs : List Byte) {s : State} (hm : 1 ≤ s.cfg.cmdBufMax) (h : ReceiverInv s) :
    (cmdSinkAll xs s).rxBuf = (s.rxBuf ++ xs).take s.cfg.cmdBufMax := by
  induction xs generalizing s with
  | nil =>
    obtain ⟨_, _, _, hmax⟩ := h
    rw [cmdSinkAll_nil, List.append_nil, List.take_of_length_le hmax]
  | cons b xs ih =>
    rw [cmdSinkAll_cons, ih (by simpa using hm) (cmdSink_receiverInv b hm h), cmdSink_rxBuf b hm h, cmdSink_cfg,
      take_take_append, List.append_assoc, List.singleton_append]

/-- R150, R215: the receiver after several bytes. -/
theorem cmdSinkAll_rxState (xs : List Byte) {s : State} (hm : 1 ≤ s.cfg.cmdBufMax) (h : ReceiverInv s) :
    (cmdSinkAll xs s).rxState =
      if s.rxState = .error ∨ s.cfg.cmdBufMax < s.rxBuf.length + xs.length then .error
      else if s.rxState = .idle ∧ xs = [] then .idle else .active := by
  induction xs generalizing s with
  | nil =>
    obtain ⟨_, _, _, hmax⟩ := h
    have hfits : ¬ s.cfg.cmdBufMax < s.rxBuf.length := by omega
    cases hs : s.rxState <;> simp [hs, hfits]
  | cons b xs ih =>
    rw [cmdSinkAll_cons, ih (by simpa using hm) (cmdSink_receiverInv b hm h), cmdSink_rxState b hm h,
      cmdSink_rxBuf b hm h, cmdSink_cfg]
    by_cases herror : s.rxState = .error ∨ s.cfg.cmdBufMax ≤ s.rxBuf.length
    · have hover : s.rxState = .error ∨ s.cfg.cmdBufMax < s.rxBuf.length + (b :: xs).length :=
        herror.imp_right fun hfull => by rw [List.length_cons]; omega
      rw [if_pos herror, if_pos (.inl rfl), if_pos hover]
    · obtain ⟨hne, hroom⟩ := not_or.mp herror
      have hlen : ((s.rxBuf ++ [b]).take s.cfg.cmdBufMax).length + xs.length = s.rxBuf.length + (b :: xs).length := by
        rw [List.length_take, List.length_append, List.length_singleton, List.length_cons]
        omega
      rw [if_neg herror, hlen]
      simp [hne]

/-- Settles O19: the receiver's two fields by the laws above, the output and the others by the sink's own. -/
theorem sunkBytesFillBufferInOrder : Obligations.SunkBytesFillBufferInOrder := by
  intro s xs hadm h
  obtain ⟨_, _, _, hbuf, _⟩ := admitted_clauses hadm
  have hm : 1 ≤ s.cfg.cmdBufMax := by omega
  exact State.eq_of_fields (by simp) (by simp) (cmdSinkAll_rxState xs hm h) (cmdSinkAll_rxBuf xs hm h) (by simp)
    (by simp) (by simp) (by simp)

/-! ### BOUNDARY (R152, R153, R159) -/

/-- Settles O43: BOUNDARY ends with the return to idle. -/
theorem boundaryAlwaysRecovers : Obligations.BoundaryAlwaysRecovers := fun _ hadm =>
  ⟨_, exec_boundary_of_admitted hadm, rfl, rfl⟩

/-- R152: an active receiver reports what the validator says of its buffer. -/
theorem boundaryReport_of_active {s : State} (hs : s.rxState = .active) :
    boundaryReport s = cmdValidate s.rxBuf s := by rw [boundaryReport, hs]

/-- R152: a receiver in error reports the overflow. -/
theorem boundaryReport_of_error {s : State} (hs : s.rxState = .error) :
    boundaryReport s = emit (.cmdRxError .overflow) s := by rw [boundaryReport, hs]

/-- R22: the states that hold a marker byte, listed. -/
theorem holdsMarker_iff_mem (d : DmxState) :
    holdsMarker d = true ↔ d ∈ [DmxState.sof1, .sof2, .sof3, .sof4] := by cases d <;> decide

/-- R152: the flush, under its condition as the rule states it. -/
theorem boundaryFlush_eq_ite (s : State) :
    boundaryFlush s = if s.cfg.sofFlushOnBoundary = true ∧ s.dmxState ∈ [.sof1, .sof2, .sof3, .sof4] then
      { cmdSinkAll (held s.cfg s.dmxState) s with dmxState := .commandByte } else s := by
  simp only [boundaryFlush, Bool.and_eq_true, holdsMarker_iff_mem]
  rfl

/-- Settles O41: the report has one law per receiver state. -/
theorem boundaryEffect : Obligations.BoundaryEffect := by
  intro s s₁ hadm hflush
  rw [exec_boundary_of_admitted hadm, boundaryFlush_eq_ite, ← hflush]
  refine ⟨fun hs => ?_, fun hs => ?_, fun hs => ?_⟩
  · rw [boundaryReport_of_idle hs]
    rfl
  · rw [boundaryReport_of_active hs]
    rfl
  · rw [boundaryReport_of_error hs]
    rfl

/-- R152: with nothing to flush, BOUNDARY in RX_ACTIVE validates the buffer and returns to idle. -/
theorem exec_boundary_of_active {s : State} (hadm : s.cfg.admitted = true)
    (hflush : s.cfg.sofFlushOnBoundary = false ∨ held s.cfg s.dmxState = []) (hs : s.rxState = .active) :
    exec .boundary s = .next (receiverToIdle (cmdValidate s.rxBuf s)) := by
  rw [exec_boundary_of_admitted hadm, boundaryFlush_of_nothing_to_flush hflush, boundaryReport_of_active hs]

theorem cmdValidate_of_short {frame : List Byte} (h : frame.length < 4) (s : State) :
    cmdValidate frame s = emit (.cmdRxError .short) s := if_pos h

theorem cmdValidate_of_bad_checksum {frame : List Byte} {s : State} (hlen : 4 ≤ frame.length)
    (h : checksum16 s.cfg frame ≠ 0) : cmdValidate frame s = emit (.cmdRxError .crc) s := by
  rcases cmdValidate_cases frame s with ⟨hshort, _⟩ | ⟨_, _, hv⟩ | ⟨_, hzero, _⟩
  · omega
  · exact hv
  · exact absurd hzero h

/-- R9: the payload of a frame is what stands between the address and the two checksum bytes. -/
theorem slice_frame_payload (a lo hi : Byte) (p : List Byte) :
    slice (a :: p ++ [lo, hi]) 1 ((a :: p ++ [lo, hi]).length - 2) = p := by
  have hlen : (a :: p ++ [lo, hi]).length - 2 = (a :: p).length := by simp
  rw [slice, hlen, List.take_left, List.drop_one, List.tail_cons]

/-- R153: a frame with a payload that verifies is accepted, with its address and its payload. -/
theorem cmdValidate_of_frame {s : State} {a lo hi : Byte} {p : List Byte} (hp : p ≠ [])
    (h : checksum16 s.cfg (a :: p ++ [lo, hi]) = 0) :
    cmdValidate (a :: p ++ [lo, hi]) s = emit (.cmdFrame a p) s := by
  have hpos := List.length_pos_iff.mpr hp
  rcases cmdValidate_cases (a :: p ++ [lo, hi]) s with ⟨hshort, _⟩ | ⟨_, hbad, _⟩ | ⟨_, _, hv⟩
  · simp only [List.length_append, List.length_cons, List.length_nil] at hshort
    omega
  · exact absurd h hbad
  · rw [hv, slice_frame_payload]
    rfl

/-- Settles O42: the short test comes before the checksum. -/
theorem candidateFrameValidated : Obligations.CandidateFrameValidated := by
  intro s hadm hflag hs
  rw [exec_boundary_of_active hadm (.inl hflag) hs]
  refine ⟨fun hshort => ?_, fun hlen hbad => ?_, fun a lo hi p hp hbuf hgood => ?_⟩
  · rw [cmdValidate_of_short hshort]
    rfl
  · rw [cmdValidate_of_bad_checksum hlen hbad]
    rfl
  · rw [hbuf] at hgood ⊢
    rw [cmdValidate_of_frame hp hgood]
    rfl

/-- R152: BOUNDARY touches neither the capture buffer nor the latch, and of `dmx_state` what the flush does. -/
theorem boundary_frame {s t : State} (h : exec .boundary s = .next t) :
    t.tlmBuf = s.tlmBuf ∧ t.pwrLatch = s.pwrLatch ∧ t.dmxState = (boundaryFlush s).dmxState := by
  obtain ⟨es, rfl⟩ := boundary_next h
  rcases boundaryFlush_cases s with hflush | ⟨_, hflush⟩
  · rw [hflush]
    exact ⟨rfl, rfl, rfl⟩
  · rw [hflush]
    exact ⟨cmdSinkAll_tlmBuf _ s, cmdSinkAll_pwrLatch _ s, rfl⟩

/-- R152: with the flag true every state but a capture ends in `COMMAND_BYTE`. -/
theorem boundaryFlush_dmxState_of_flag {s : State} (h : s.cfg.sofFlushOnBoundary = true) :
    (boundaryFlush s).dmxState =
      if s.dmxState = .telemetryPayload then .telemetryPayload else .commandByte := by
  rw [boundaryFlush, h]
  cases hd : s.dmxState <;> simp [holdsMarker, hd]

/-- Settles O44: BOUNDARY keeps the bytes forwarded or held (R47), so it forwards those it no longer holds. -/
theorem boundaryFrame : Obligations.BoundaryFrame := by
  intro s t h
  obtain ⟨htlm, hlatch, hd⟩ := boundary_frame h
  obtain ⟨hcfg, hinput, _⟩ := configurationFixedAndEventsOnlyAppended _ s t h
  have hbytes := boundary_forwardedOrHeld h
  unfold forwardedOrHeld at hbytes
  refine ⟨htlm, hlatch, hcfg, hinput, fun hflag => ?_, fun hflag => ?_⟩
  · rw [boundaryFlush_of_nothing_to_flush (.inl hflag)] at hd
    rw [hcfg, hd] at hbytes
    exact ⟨hd, List.append_cancel_right hbytes⟩
  · rw [boundaryFlush_dmxState_of_flag hflag] at hd
    have hnone : held t.cfg t.dmxState = [] := by
      rw [hd]
      split <;> rfl
    rw [hnone, List.append_nil] at hbytes
    exact ⟨hd, hbytes⟩

/-! ### SEND (R154 to R157) -/

theorem exec_send_of_busy {s : State} (hadm : s.cfg.admitted = true) (hs : s.rxState ≠ .idle) (a : Byte)
    (p : List Byte) : exec (.send a p) s = .next (emit (.sendReject .busy) s) := by
  have hbusy : receiverIdle s = false := by simpa [receiverIdle] using hs
  exact (whenAdmitted_of_admitted hadm _).trans (by rw [if_pos hbusy])

/-- R154: at an idle receiver only the length is tested. -/
theorem exec_send_of_idle {s : State} (hadm : s.cfg.admitted = true) (hs : s.rxState = .idle) (a : Byte)
    (p : List Byte) : exec (.send a p) s = .next
      (if p.length < 1 ∨ s.cfg.cmdBufMax < p.length + 3 then emit (.sendReject .len) s else cmdBuild a p s) := by
  have hidle : ¬ receiverIdle s = false := by simp [receiverIdle, hs]
  exact (whenAdmitted_of_admitted hadm _).trans (by rw [if_neg hidle])

/-- R155, R156: the frame's bytes and then its end. -/
theorem cmdBuild_eq (a : Byte) (p : List Byte) (s : State) :
    cmdBuild a p s = { s with
      output := s.output ++ ((txFrame s.cfg a p).map .txByte ++ [.txEnd (decide (a = 0x00))]) } := by
  rw [cmdBuild, txBytes_eq, ← List.append_assoc]
  rfl

/-- R104, R155: an outbound frame has a zero residue. -/
theorem checksum16_txFrame (c : Config) (a : Byte) (p : List Byte) : checksum16 c (txFrame c a p) = 0 :=
  trailerGivesZeroResidue.1 c (a :: p) (List.cons_ne_nil a p)

/-- R154, R155: at an idle receiver a payload within the bounds is sent. -/
theorem exec_send_of_fits {s : State} (hadm : s.cfg.admitted = true) (hs : s.rxState = .idle) (a : Byte)
    {p : List Byte} (hpos : 1 ≤ p.length) (hmax : p.length + 3 ≤ s.cfg.cmdBufMax) :
    exec (.send a p) s = .next { s with
      output := s.output ++ ((txFrame s.cfg a p).map .txByte ++ [.txEnd (decide (a = 0x00))]) } := by
  rw [exec_send_of_idle hadm hs, if_neg (by omega), cmdBuild_eq]

/-- Settles O47: busy before length; the frame's two last bytes are those of its checksum. -/
theorem sendEmitsFrameOrRejects : Obligations.SendEmitsFrameOrRejects := by
  rintro s a p _ hadm rfl
  refine ⟨fun hs => exec_send_of_busy hadm hs a p, fun hs hlen => ?_, fun hs hpos hmax => ⟨?_, ?_⟩⟩
  · rw [exec_send_of_idle hadm hs, if_pos (by omega)]
    rfl
  · exact exec_send_of_fits hadm hs a hpos (by omega)
  · exact (verify16_iff s.cfg _).mpr (checksum16_txFrame s.cfg a p)

/-! ### The round trip (R158)

While no frame is captured and `SOF_4` is not reached, a byte of the line waits among the held bytes or goes to the
command sink, so a run of line bytes does what routing all of them but the held tail does. -/

/-- R121 to R124: from `s` to `t` the bytes held before and then the line bytes `q` were routed to the command sink,
but for those still held. -/
structure RoutesAllButHeld (q : List Byte) (s t : State) : Prop where
  not_capturing : t.dmxState ≠ .telemetryPayload
  routed : ∃ ys, ys ++ held s.cfg t.dmxState = held s.cfg s.dmxState ++ q ∧
    t = setDmxState t.dmxState (cmdSinkAll ys s)

theorem RoutesAllButHeld.refl {s : State} (h : s.dmxState ≠ .telemetryPayload) : RoutesAllButHeld [] s s :=
  ⟨h, [], by simp, rfl⟩

theorem RoutesAllButHeld.trans {q r : List Byte} {s t u : State} (hst : RoutesAllButHeld q s t)
    (htu : RoutesAllButHeld r t u) : RoutesAllButHeld (q ++ r) s u := by
  obtain ⟨_, ys, hys, ht⟩ := hst
  obtain ⟨hu, zs, hzs, hueq⟩ := htu
  have hcfg : t.cfg = s.cfg := by rw [ht, setDmxState_cfg, cmdSinkAll_cfg]
  refine ⟨hu, ys ++ zs, ?_, ?_⟩
  · rw [hcfg] at hzs
    rw [List.append_assoc, hzs, ← List.append_assoc, hys, List.append_assoc]
  · rw [cmdSinkAll_append]
    exact hueq.trans (by rw [ht, cmdSinkAll_setDmxState]; rfl)

/-- R121 to R124: one RX_BYTE outside a capture and `SOF_4`. -/
theorem rxByte_routesAllButHeld {b : Byte} {s t : State} (hd : s.dmxState ≠ .telemetryPayload)
    (hd4 : s.dmxState ≠ .sof4) (h : dmxByte b s = .next t) : RoutesAllButHeld [b] s t := by
  rcases dmxByte_cases h with ⟨_, _, d, hd', hheld, rfl⟩ | ⟨_, _, hb, rfl⟩ | ⟨_, _, _, rfl⟩ | ⟨hd', _⟩ | ⟨hd', _⟩ |
    ⟨hd', _⟩ | ⟨⟨hd', _⟩, _⟩
  · exact ⟨hd', [], hheld.symm, rfl⟩
  · exact ⟨nofun, held s.cfg s.dmxState, by simp [held_sof1, hb], rfl⟩
  · exact ⟨nofun, held s.cfg s.dmxState ++ [b], by simp, rfl⟩
  · exact absurd hd' hd4
  · exact absurd hd' hd4
  · exact absurd hd' hd
  · exact absurd hd' hd

/-- R158: a run of line bytes that never reaches `SOF_4`. -/
theorem runAll_rxByte_routesAllButHeld {bs : List Byte} {s u : State} (hd : s.dmxState ≠ .telemetryPayload)
    (hno4 : ∀ q v, q <+: bs → runAll (q.map .rxByte) s = some v → v.dmxState ≠ .sof4)
    (h : runAll (bs.map .rxByte) s = some u) : RoutesAllButHeld bs s u := by
  induction bs generalizing s with
  | nil =>
    cases h
    exact .refl hd
  | cons b bs ih =>
    obtain ⟨t, hexec, hrun⟩ := runAll_cons_eq_some h
    have hst := rxByte_routesAllButHeld hd (hno4 [] s List.nil_prefix rfl) (rxByte_next hexec).2
    refine hst.trans (ih hst.not_capturing (fun q v hq hv => ?_) hrun)
    exact hno4 (b :: q) v (List.cons_prefix_cons.mpr ⟨rfl, hq⟩) ((runAll_cons_of_next hexec _).trans hv)

/-- R150: a list of bytes that fits, routed to an idle and empty receiver, is its buffer. -/
theorem cmdSinkAll_of_idle {s : State} {xs : List Byte} (hadm : s.cfg.admitted = true) (hs : s.rxState = .idle)
    (hbuf : s.rxBuf = []) (hne : xs ≠ []) (hfits : xs.length ≤ s.cfg.cmdBufMax) :
    cmdSinkAll xs s = { s with output := s.output ++ xs.map .cmdByte, rxBuf := xs, rxState := .active } := by
  rw [sunkBytesFillBufferInOrder s xs hadm (receiverInv_of_idle hs hbuf), hs, hbuf, List.nil_append,
    List.take_of_length_le hfits, if_neg (by simpa using hfits), if_neg (by simp [hne])]

/-- R153, R104: BOUNDARY accepts an outbound frame, with its address and its payload. -/
theorem exec_boundary_of_txFrame {s : State} {a : Byte} {p : List Byte} (hadm : s.cfg.admitted = true)
    (hflush : s.cfg.sofFlushOnBoundary = false ∨ held s.cfg s.dmxState = []) (hs : s.rxState = .active)
    (hbuf : s.rxBuf = txFrame s.cfg a p) (hp : p ≠ []) : exec .boundary s =
      .next { s with output := s.output ++ [.cmdFrame a p], rxBuf := [], rxState := .idle } := by
  have hvalid : cmdValidate (txFrame s.cfg a p) s = emit (.cmdFrame a p) s :=
    cmdValidate_of_frame hp (checksum16_txFrame s.cfg a p)
  rw [exec_boundary_of_active hadm hflush hs, hbuf, hvalid]
  rfl

/-- Settles O48: with no held tail the run routes the whole frame, which fills the buffer and verifies. -/
theorem sentFrameIsReceived : Obligations.SentFrameIsReceived := by
  intro s u a p hadm hd hs hbuf hpos hmax hno4 hrun hud
  refine ⟨exec_send_of_fits hadm hs a hpos hmax, ?_⟩
  have hfits : (txFrame s.cfg a p).length ≤ s.cfg.cmdBufMax := by
    simp only [txFrame, List.length_append, List.length_cons, List.length_nil]
    omega
  obtain ⟨_, ys, hys, hrouted⟩ := runAll_rxByte_routesAllButHeld (by simp [hd]) hno4 hrun
  rw [hud, hd, held_commandByte, List.append_nil, List.nil_append] at hys
  have hu : u = { s with
      output := s.output ++ (txFrame s.cfg a p).map .cmdByte, rxBuf := txFrame s.cfg a p, rxState := .active } := by
    rw [hrouted, hud, ← hd, hys, cmdSinkAll_of_idle hadm hs hbuf (by simp [txFrame]) hfits]
    rfl
  have hnone : held u.cfg u.dmxState = [] := by rw [hud, held_commandByte]
  rw [exec_boundary_of_txFrame (s := u) (a := a) (by rw [hu]; exact hadm) (.inr hnone) (by rw [hu]) (by rw [hu])
    (List.ne_nil_of_length_pos hpos), hu]
  exact congrArg Host.Outcome.next
    (State.eq_of_fields rfl rfl hs.symm hbuf.symm rfl rfl rfl (List.append_assoc _ _ _))

end Sys2Proof.Machine
end

section
/-! The telemetry decoder rules (43_telemetry_decoder.md): what each completed frame gives (R181 to R193), the refusal
below R180's seven bytes, and the power-interruption latch over one transaction (R190, R194). -/

namespace Sys2Proof.Machine

/-! ### The end of a capture (R129, R180) -/

/-- Settles O27: the declared count is reached, and the length test of R180 refuses. -/
theorem bodyBelowHeaderRefused : Obligations.BodyBelowHeaderRefused := by
  intro s b hadm hd hlen hshort
  rw [exec_rxByte_of_capturing hadm hd, dmxCapture, if_pos (by simpa [isBodyLength] using hlen), dmxComplete,
    if_pos hshort]

/-! ### The branches of the decoder (R181, R182, R192) -/

/-- R181: a fold that is not zero. -/
theorem tlmDecode_of_bad_fold {body : List Byte} (h : xor8 body ≠ 0) (s : State) :
    tlmDecode body s = emit (.tlmDrop .xor) s := by
  rw [tlmDecode, if_pos h]

/-- R182, R190: a zero fold and the id of a power-interruption notice, which R7 keeps apart from a measurement's. -/
theorem tlmDecode_of_msgidPwr {body : List Byte} {s : State} (hadm : s.cfg.admitted = true) (hxor : xor8 body = 0)
    (hid : byteAt body 1 = s.cfg.msgidPwr) : tlmDecode body s = tlmPower s := by
  obtain ⟨_, _, hids, _⟩ := admitted_clauses hadm
  have hmeas : byteAt body 1 ≠ s.cfg.msgidMeas := fun h => hids (h.symm.trans hid)
  rw [tlmDecode, if_neg (not_not.mpr hxor), if_neg hmeas, if_pos hid]

/-- R192: a zero fold and an id of neither kind. -/
theorem tlmDecode_of_unknown_id {body : List Byte} {s : State} (hxor : xor8 body = 0)
    (hmeas : byteAt body 1 ≠ s.cfg.msgidMeas) (hpwr : byteAt body 1 ≠ s.cfg.msgidPwr) :
    tlmDecode body s = emit (.tlmDrop .unknownId) s := by
  rw [tlmDecode, if_neg (not_not.mpr hxor), if_neg hmeas, if_neg hpwr]

/-- R186: a payload that does not hold its mask and one value per set bit. -/
theorem tlmMeas_of_too_short (ts : Word) {payload : List Byte} (s : State)
    (h : payload.length < 4 + 4 * popcount (le32 payload 0)) :
    tlmMeas ts payload s = emit (.tlmDrop .shortPayload) s := by
  rw [tlmMeas, if_pos h, ite_self]

theorem tlmPower_of_clear {s : State} (h : s.pwrLatch = false) :
    tlmPower s = setPwrLatch true (emit .pwrRecovery s) := by
  rw [tlmPower, if_neg (by simp [h])]
  rfl

theorem tlmPower_of_set {s : State} (h : s.pwrLatch = true) : tlmPower s = s := by
  rw [tlmPower, if_pos h]

/-! ### What a completed frame gives (R181, R186, R190, R192) -/

/-- Settles O33. -/
theorem badXorDropsFrame : Obligations.BadXorDropsFrame := by
  intro s b body hadm hframe hxor
  rw [exec_rxByte_of_completesFrame hadm hframe, tlmDecode_of_bad_fold hxor, emit_afterFrame, List.nil_append]

/-- Settles O34. -/
theorem unknownIdDropsFrame : Obligations.UnknownIdDropsFrame := by
  intro s b body hadm hframe hxor hmeas hpwr
  rw [exec_rxByte_of_completesFrame hadm hframe,
    tlmDecode_of_unknown_id (s := afterFrame s body []) hxor hmeas hpwr, emit_afterFrame, List.nil_append]

/-- Settles O35. -/
theorem powerNoticeLatches : Obligations.PowerNoticeLatches := by
  intro s b body hadm hframe hxor hid
  rw [exec_rxByte_of_completesFrame hadm hframe, tlmDecode_of_msgidPwr (s := afterFrame s body []) hadm hxor hid]
  refine ⟨fun hclear => ?_, fun hset => ?_⟩
  · rw [tlmPower_of_clear (s := afterFrame s body []) hclear, emit_afterFrame]
    rfl
  · rw [tlmPower_of_set (s := afterFrame s body []) hset]

/-- Settles O36: a payload below four bytes is below its need too. -/
theorem shortMeasurementDropsFrame : Obligations.ShortMeasurementDropsFrame := by
  rintro s b body _ hadm hframe hxor hid rfl hshort
  have hneed : (bodyPayload body).length < 4 + 4 * popcount (le32 (bodyPayload body) 0) :=
    hshort.elim (fun h => h.trans_le (Nat.le_add_right _ _)) id
  rw [exec_rxByte_of_completesFrame hadm hframe, tlmDecode_of_msgidMeas (s := afterFrame s body []) hxor hid,
    tlmMeas_of_too_short _ _ hneed, emit_afterFrame, List.nil_append]

/-! ### One result per frame (R193) -/

theorem emit_ne_self (e : Event) (s : State) : emit e s ≠ s := fun h => by
  simpa using congrArg State.output h

/-- R184, R186: a measurement frame always emits. -/
theorem tlmMeas_ne_self (ts : Word) (payload : List Byte) (s : State) : tlmMeas ts payload s ≠ s := by
  by_cases h : payload.length < 4 + 4 * popcount (le32 payload 0)
  · rw [tlmMeas_of_too_short ts s h]
    exact emit_ne_self _ s
  · rw [tlmMeas_of_long_enough ts s (by omega)]
    exact emit_ne_self _ s

/-- R193: the decoder does nothing exactly for a power-interruption notice whose latch is set. -/
theorem tlmDecode_eq_self_iff {body : List Byte} {s : State} (hadm : s.cfg.admitted = true) :
    tlmDecode body s = s ↔ xor8 body = 0 ∧ byteAt body 1 = s.cfg.msgidPwr ∧ s.pwrLatch = true := by
  refine ⟨fun h => ?_, fun ⟨hxor, hid, hset⟩ => (tlmDecode_of_msgidPwr hadm hxor hid).trans (tlmPower_of_set hset)⟩
  by_cases hxor : xor8 body = 0
  · by_cases hpwr : byteAt body 1 = s.cfg.msgidPwr
    · rw [tlmDecode_of_msgidPwr hadm hxor hpwr] at h
      cases hlatch : s.pwrLatch with
      | false =>
        rw [tlmPower_of_clear hlatch] at h
        exact absurd (congrArg State.output h) (by simp)
      | true => exact ⟨hxor, hpwr, rfl⟩
    · by_cases hmeas : byteAt body 1 = s.cfg.msgidMeas
      · exact absurd (tlmDecode_of_msgidMeas hxor hmeas ▸ h) (tlmMeas_ne_self _ _ s)
      · exact absurd (tlmDecode_of_unknown_id hxor hmeas hpwr ▸ h) (emit_ne_self _ s)
  · exact absurd (tlmDecode_of_bad_fold hxor s ▸ h) (emit_ne_self _ s)

/-- R193: the decoder's events are one result, or none exactly where it does nothing at all. -/
theorem tlmDecode_emits_one_result (body : List Byte) (s : State) :
    ∃ es, (tlmDecode body s).output = s.output ++ es ∧ (es = [] ↔ tlmDecode body s = s) ∧
      (es = [] ∨ ∃ e, es = [e] ∧ isDecoderResult e = true) := by
  rcases tlmDecode_cases body s with ⟨e, he, _, h⟩ | ⟨_, h⟩ | ⟨_, h⟩
  · rw [h]
    exact ⟨[e], rfl, iff_of_false nofun (emit_ne_self e s), .inr ⟨e, rfl, he⟩⟩
  · rw [h]
    exact ⟨[.pwrRecovery], rfl, iff_of_false nofun fun hs => by simpa using congrArg State.output hs,
      .inr ⟨.pwrRecovery, rfl, rfl⟩⟩
  · exact ⟨[], by rw [h, List.append_nil], iff_of_true rfl h, .inl rfl⟩

/-- Settles O38. -/
theorem oneResultPerFrame : Obligations.OneResultPerFrame := by
  intro s b body hadm hframe
  obtain ⟨es, hout, hnone, hone⟩ := tlmDecode_emits_one_result body (afterFrame s body [])
  rw [tlmDecode_eq_self_iff (s := afterFrame s body []) hadm] at hnone
  exact ⟨_, es, exec_rxByte_of_completesFrame hadm hframe, by simp [hout], hnone, hone, by simp, by simp⟩

/-! ### The number of recovery actions (R190, R194) -/

@[simp] theorem recoveries_setDmxState (d : DmxState) (s : State) : recoveries (setDmxState d s) = recoveries s := rfl
@[simp] theorem recoveries_setTlmBuf (bs : List Byte) (s : State) : recoveries (setTlmBuf bs s) = recoveries s := rfl
@[simp] theorem recoveries_setPwrLatch (p : Bool) (s : State) : recoveries (setPwrLatch p s) = recoveries s := rfl
@[simp] theorem recoveries_receiverToIdle (s : State) : recoveries (receiverToIdle s) = recoveries s := rfl

@[simp] theorem recoveries_emit_pwrRecovery (s : State) : recoveries (emit .pwrRecovery s) = recoveries s + 1 := by
  simp [recoveries]

@[simp] theorem recoveries_emit_of_ne {e : Event} (h : e ≠ .pwrRecovery) (s : State) :
    recoveries (emit e s) = recoveries s := by
  simp [recoveries, h]

/-- R150: the command sink triggers no recovery action. -/
@[simp] theorem recoveries_cmdSinkAll (bs : List Byte) (s : State) : recoveries (cmdSinkAll bs s) = recoveries s :=
  forBytes_keeps recoveries cmdSink (fun b s => by simp [recoveries]) bs s

@[simp] theorem recoveries_boundaryFlush (s : State) : recoveries (boundaryFlush s) = recoveries s := by
  rcases boundaryFlush_cases s with h | ⟨_, h⟩ <;> simp [h]

@[simp] theorem recoveries_cmdValidate (frame : List Byte) (s : State) :
    recoveries (cmdValidate frame s) = recoveries s := by
  rcases cmdValidate_cases frame s with ⟨_, h⟩ | ⟨_, _, h⟩ | ⟨_, _, h⟩ <;> simp [h]

@[simp] theorem recoveries_boundaryReport (s : State) : recoveries (boundaryReport s) = recoveries s := by
  rcases boundaryReport_cases s with ⟨_, h⟩ | ⟨_, h⟩ | ⟨_, h⟩ <;> simp [h]

/-- R152: BOUNDARY triggers no recovery action. -/
theorem boundary_recoveries {s t : State} (h : exec .boundary s = .next t) : recoveries t = recoveries s := by
  obtain ⟨_, hnext⟩ := whenAdmitted_eq_next.mp h
  simp [← Host.Outcome.next.inj hnext]

@[simp] theorem recoveries_cmdBuild (a : Byte) (p : List Byte) (s : State) :
    recoveries (cmdBuild a p s) = recoveries s := by
  have htx (bs : List Byte) : recoveries (txBytes bs s) = recoveries s :=
    forBytes_keeps recoveries _ (fun b u => by simp) bs s
  simp [cmdBuild, cmdClassify, htx]

/-- R154: SEND triggers no recovery action. -/
theorem send_recoveries {a : Byte} {p : List Byte} {s t : State} (h : exec (.send a p) s = .next t) :
    recoveries t = recoveries s := by
  obtain ⟨_, hnext⟩ := whenAdmitted_eq_next.mp h
  rw [← Host.Outcome.next.inj hnext]
  split
  · simp
  · split
    · simp
    · exact recoveries_cmdBuild a p s

/-! ### The latch over one transaction (R190, R194) -/

/-- R190, R194: from `s` to `t` a set latch stays set, and each recovery action sets a clear one. -/
structure LatchCounts (s t : State) : Prop where
  stays_set : s.pwrLatch = true → t.pwrLatch = true
  balance : recoveries t + latchCount s = recoveries s + latchCount t

/-- What touches neither the latch nor the number of recovery actions. -/
theorem LatchCounts.of_unchanged {s t : State} (hlatch : t.pwrLatch = s.pwrLatch)
    (hcount : recoveries t = recoveries s) : LatchCounts s t :=
  ⟨hlatch.trans, by simp only [latchCount, hlatch, hcount]⟩

theorem LatchCounts.trans {s t u : State} (hst : LatchCounts s t) (htu : LatchCounts t u) : LatchCounts s u :=
  ⟨htu.stays_set ∘ hst.stays_set, by linarith only [hst.balance, htu.balance]⟩

/-- R190: the decoder's one recovery action comes with the setting of a clear latch. -/
theorem tlmDecode_latchCounts (body : List Byte) (s : State) : LatchCounts s (tlmDecode body s) := by
  rcases tlmDecode_cases body s with ⟨e, _, hne, h⟩ | ⟨hclear, h⟩ | ⟨_, h⟩
  · rw [h]
    exact .of_unchanged rfl (recoveries_emit_of_ne hne s)
  · rw [h]
    exact ⟨fun _ => rfl, by simp [latchCount, hclear]⟩
  · rw [h]
    exact .of_unchanged rfl rfl

/-- R190: of all RX_BYTE does, only the decoder at the end of a capture touches the latch. -/
theorem rxByte_latchCounts {b : Byte} {s t : State} (h : dmxByte b s = .next t) : LatchCounts s t := by
  rcases dmxByte_cases h with ⟨_, _, d, _, _, rfl⟩ | ⟨_, _, _, rfl⟩ | ⟨_, _, _, rfl⟩ | ⟨_, c, _, rfl⟩ | ⟨_, _, _, rfl⟩ |
    ⟨_, _, rfl⟩ | ⟨_, rfl⟩
  · exact .of_unchanged rfl rfl
  · exact .of_unchanged (by simp) (by simp)
  · exact .of_unchanged (by simp) (by simp)
  · exact .of_unchanged (by simp) (by simp)
  · exact .of_unchanged rfl rfl
  · exact .of_unchanged rfl rfl
  · refine .trans (.of_unchanged ?_ ?_) (tlmDecode_latchCounts _ _)
    · rfl
    · simp

/-- R190, R194: POWER_ON alone clears the latch, and no other transaction counts a recovery action without setting it. -/
theorem exec_latchCounts {i : Instr} {s t : State} (hi : i ≠ .powerOn) (h : exec i s = .next t) : LatchCounts s t := by
  cases i with
  | powerOn => exact absurd rfl hi
  | rxByte b => exact rxByte_latchCounts (rxByte_next h).2
  | boundary =>
    obtain ⟨_, hlatch, _⟩ := boundary_frame h
    exact .of_unchanged hlatch (boundary_recoveries h)
  | send a p =>
    have hcount := send_recoveries h
    obtain ⟨es, rfl⟩ := send_next h
    exact .of_unchanged rfl hcount

/-- Settles O39. -/
theorem latchCountsRecoveries : Obligations.LatchCountsRecoveries := by
  intro i s t hi h
  obtain ⟨hstays, hbalance⟩ := exec_latchCounts hi h
  exact ⟨hstays, hbalance⟩

end Sys2Proof.Machine
end

section
/-! The exception rules (60_exceptions.md): no error stops the block (R212), and the code number each event reports
(R211). -/

namespace Sys2Proof.Machine

/-- R128, R129: during a capture an RX_BYTE that reaches the declared length completes the frame, and any other extends
the body. -/
theorem exists_rxByte_eq_next_of_capturing {s : State} (hadm : s.cfg.admitted = true) (hinv : CaptureInv s)
    (hd : s.dmxState = .telemetryPayload) (b : Byte) : ∃ t, exec (.rxByte b) s = .next t := by
  by_cases hlen : (s.tlmBuf ++ [b]).length + s.cfg.tlmLenBias.toNat = (byteAt (s.tlmBuf ++ [b]) 0).toNat
  · exact ⟨_, (captureCompletesFrame s b hadm hinv hd hlen).2⟩
  · exact ⟨_, captureAppendsByte s b hadm hd hlen⟩

/-- Settles O14: only an RX_BYTE that completes a capture could be refused, and R29 (4) gives its body the seven bytes of
R180. -/
theorem everyTransactionCompletes : Obligations.EveryTransactionCompletes := by
  intro s hadm hinv i
  cases i with
  | powerOn => exact ⟨_, whenAdmitted_of_admitted hadm _⟩
  | rxByte b =>
    by_cases hd : s.dmxState = .telemetryPayload
    · exact exists_rxByte_eq_next_of_capturing hadm hinv.1 hd b
    · exact exists_exec_eq_next hadm hd (.rxByte b)
  | boundary => exact ⟨_, exec_boundary_of_admitted hadm⟩
  | send a p => exact ⟨_, whenAdmitted_of_admitted hadm _⟩

/-- Settles O49. -/
theorem errorEventsCarryTheirCodes : Obligations.ErrorEventsCarryTheirCodes := ⟨rfl, rfl, fun _ => rfl, rfl⟩

end Sys2Proof.Machine
end

section
/-! The reset and hazard rules (70_reset_and_hazards.md): what POWER_ON writes (R240), what ends the wait for line bytes
(R246), the latch between two POWER_ONs (R248), and the block with nothing presented (R252). -/

namespace Sys2Proof.Machine

/-- R248: over a run without POWER_ON a set latch stays set, and each recovery action sets a clear one. -/
theorem runAll_latchCounts {is : List Instr} {s t : State} (hno : Instr.powerOn ∉ is) (h : runAll is s = some t) :
    LatchCounts s t := by
  induction is generalizing s with
  | nil => exact Option.some.inj h ▸ .of_unchanged rfl rfl
  | cons i is ih =>
    obtain ⟨hi, his⟩ := List.ne_and_not_mem_of_not_mem_cons hno
    obtain ⟨u, hexec, hrun⟩ := runAll_cons_eq_some h
    exact (exec_latchCounts hi.symm hexec).trans (ih his hrun)

theorem latchCount_le_one (s : State) : latchCount s ≤ 1 := by
  unfold latchCount
  split <;> decide

theorem latchCount_of_set {s : State} (h : s.pwrLatch = true) : latchCount s = 1 := if_pos h

/-- A latch that is never cleared counts at most one recovery action, and none once it is set. -/
theorem LatchCounts.recoveries_le_succ {s t : State} (h : LatchCounts s t) : recoveries t ≤ recoveries s + 1 := by
  have hbalance := h.balance
  have hlatch := latchCount_le_one t
  omega

theorem LatchCounts.recoveries_eq_of_set {s t : State} (h : LatchCounts s t) (hset : s.pwrLatch = true) :
    recoveries t = recoveries s := by
  have hbalance := h.balance
  rw [latchCount_of_set hset, latchCount_of_set (h.stays_set hset)] at hbalance
  exact Nat.succ.inj hbalance

/-- Settles O40: the latch counts the recovery actions of the run, and it counts to one. -/
theorem oneRecoveryPerPowerCycle : Obligations.OneRecoveryPerPowerCycle := by
  intro is s t hno hrun
  have hcounts := runAll_latchCounts hno hrun
  exact ⟨hcounts.recoveries_le_succ, fun hset => ⟨hcounts.stays_set hset, hcounts.recoveries_eq_of_set hset⟩⟩

/-- Settles O29: of BOUNDARY only the flush writes `dmx_state`, and a capture holds no marker byte to flush; SEND only
emits. -/
theorem onlyBytesAndPowerOnEndTheWait : Obligations.OnlyBytesAndPowerOnEndTheWait := by
  intro s hadm
  refine ⟨fun hwait => ?_, fun a p => ?_⟩
  · obtain ⟨t, hnext⟩ : ∃ t, exec .boundary s = .next t := ⟨_, exec_boundary_of_admitted hadm⟩
    obtain ⟨htlm, _, hd⟩ := boundary_frame hnext
    have hnone : s.cfg.sofFlushOnBoundary = false ∨ held s.cfg s.dmxState = [] :=
      hwait.imp_right fun hcapture => by rw [hcapture, held_telemetryPayload]
    rw [boundaryFlush_of_nothing_to_flush hnone] at hd
    exact ⟨t, hnext, hd, htlm⟩
  · obtain ⟨t, hnext⟩ : ∃ t, exec (.send a p) s = .next t := ⟨_, whenAdmitted_of_admitted hadm _⟩
    obtain ⟨es, rfl⟩ := send_next hnext
    exact ⟨_, hnext, rfl, rfl⟩

/-- Settles O8: with nothing to fetch, the step is the wait. -/
theorem stepWaitsWithNothingPresented : Obligations.StepWaitsWithNothingPresented := by
  intro s hadm hinput
  rw [step, fetch_of_nil hinput]
  exact whenAdmitted_of_admitted hadm _

/-- Settles O16: under an admitted configuration POWER_ON is its one state update. -/
theorem powerOnWritesResetValues : Obligations.PowerOnWritesResetValues := fun _ hadm =>
  whenAdmitted_of_admitted hadm _

end Sys2Proof.Machine
end

section
/-! The sample words of 95_test_vectors.md (ENC-1 to ENC-8), through the opcode table's numbering of the bits: a word
that spells a transaction is that transaction's encoding (R71 to R74), and any other is in one of R75's cases. -/

namespace Sys2Proof

/-- R71 to R74: the bits of a transaction's encoding are read as that transaction. -/
theorem decodeTableWord_of_eq_encode {nbits w : Nat} {i : Instr} (h : transactionOfTableWord nbits w = encode i) :
    decodeTableWord nbits w = some i := by
  rw [decodeTableWord, h, decodeEncodeRoundTrip]
  rfl

/-- The table's 16-bit rows are bare header words. -/
theorem transactionOfTableWord_sixteen (w : Nat) : transactionOfTableWord 16 w = ⟨BitVec.ofNat 16 w, []⟩ :=
  congrArg (Transaction.mk · []) (BitVec.eq_of_toNat_eq (by simp))

/-- R75: a bare header word with a reserved tag, a bit of `w[11:8]` set, or a data byte on POWER_ON or BOUNDARY is read
as no transaction. -/
theorem decodeTableWord_sixteen_eq_none {w : Nat} (hw : w < 2 ^ 16)
    (h : 4 ≤ w / 0x1000 ∨ w / 0x100 % 0x10 ≠ 0 ∨ (w / 0x1000 = 0 ∨ w / 0x1000 = 2) ∧ w % 0x100 ≠ 0) :
    decodeTableWord 16 w = none := by
  have hheader : (BitVec.ofNat 16 w).toNat = w := by rw [BitVec.toNat_ofNat, Nat.mod_eq_of_lt hw]
  obtain ⟨e, he, _⟩ := (everyOtherHeaderWordRefused (BitVec.ofNat 16 w) [] fun _ => rfl).1 (by rwa [hheader])
  rw [decodeTableWord, transactionOfTableWord_sixteen, he]
  rfl

/-- Settles O6: ENC-1 to ENC-4 are encodings; ENC-5 and ENC-6 have a data byte, ENC-7 a reserved bit, ENC-8 reserved
tags. -/
theorem sampleWordsDecode : Obligations.SampleWordsDecode := by
  refine ⟨?enc1, ?enc2, ?enc3, ?bareSend, ?enc4, ?enc5, ?enc6, ?enc7, ?enc8_first, ?enc8_last⟩
  case enc1 | enc2 | enc3 | bareSend => exact decodeTableWord_of_eq_encode rfl
  case enc4 => exact decodeEncodeRoundTrip (.send 0x00 [0x06, 0x00, 0x01, 0x00, 0x03])
  case enc5 | enc6 => exact decodeTableWord_sixteen_eq_none (by decide) (.inr (.inr (by decide)))
  case enc7 => exact decodeTableWord_sixteen_eq_none (by decide) (.inr (.inl (by decide)))
  case enc8_first | enc8_last => exact decodeTableWord_sixteen_eq_none (by decide) (.inl (by decide))

end Sys2Proof
end
